-- ==== Sys2Proof/Word.lean ====
section
/-! DEFINITION. The words of the line ring: bytes, 16-bit frame words, 32-bit tick numbers, and the sparse map type
that the part's indexed stores are held in. -/

namespace Sys2Proof

/-- One byte of a frame (R1). -/
abbrev Byte := BitVec 8

/-- One 16-bit word of a frame; the check of R2 sums sixteen of them modulo 65536. -/
abbrev Half := BitVec 16

/-- A 32-bit count: hall ticks (R15), book sequence numbers (R55), call sequence numbers (R117). -/
abbrev Count32 := BitVec 32

/-- A sparse map from numbers to entries, kept with rising keys. -/
abbrev Map (α : Type) := List (Nat × α)

end Sys2Proof
end

