-- ==== Sys2Proof/Config.lean ====
section
/-! DEFINITION. What the spec fixes for every HB64 (sizes and ranges), and the one value it leaves open. -/

namespace Sys2Proof.Config

/-- Entries of the urgent insert queue (R12). -/
def urgentSize : Nat := 16
/-- Entries of the normal insert queue (R12). -/
def normalSize : Nat := 48
/-- Maximum of every counter (R25). -/
def counterMax : Nat := 65535
/-- The broadcast destination (R1). -/
def broadcast : Half := 1023#16
/-- The pack bays, in the ascending order in which R14, R22, R64 serve them. -/
def bays : List Nat := List.range' 1 64
/-- The pick lanes, in ascending order. -/
def lanes : List Nat := List.range' 1 255
/-- The styles that have a Style Table entry (R46). -/
def styles : List Nat := List.range' 1 63
/-- The notice destinations (R50). -/
def destinations : List Nat := List.range' 1 4
/-- The call records (R115). -/
def callRecords : List Nat := List.range 512
/-- How many lanes there are: R194 bounds a chain of LANE_OFFLINE actions by it. -/
def laneCount : Nat := 255
/-- Live records the Order Book holds at most (R53). -/
def bookSize : Nat := 1024
/-- Records of the Hold Pool (R101). -/
def holdRecords : Nat := 1023
/-- Entries of one notice destination queue (R192). -/
def noticeQueueSize : Nat := 16
/-- Maximum of a destination's lost count (R192). -/
def lostMax : Nat := 255
/-- Steps of the Step Store; the finish pointer past its end (R47, R178). -/
def stepCount : Nat := 2048
/-- The largest step of hall time one Tick may cause (R16). -/
def maxTickStep : Nat := 16

/-- Whether a carrier that is already SURPLUS and verified keeps its verification and net weight when an Answer
names it beyond the count sent (R129) or for an orphan (R133). The spec gives its new state and article and is
silent on the two: a FREE VALUE, a function of the carrier id, its article before and its article after.
DESIGN CHOICE, log entry 25. -/
opaque surplusKeepsNet : (carrier before after : Nat) → Bool

end Sys2Proof.Config
end

