-- ==== Sys2Proof/Syntax.lean ====
section
/-! DEFINITION. Frames of the line ring as the part receives them, and the commands: one constructor of `Instr` for
each row of spec/opcode_table.json. -/

namespace Sys2Proof

/-- The kinds the part exchanges (R1). -/
inductive Kind where
  | pitch | tick | sighting | call | answer | steer | bayCommand | bayReport | notice | adminRequest | adminReply
  deriving DecidableEq, Repr

/-- The kinds the part sends (R8). -/
inductive SentKind where
  | call | steer | bayCommand | notice | adminReply
  deriving DecidableEq, Repr

/-- A sent kind as a kind of the ring. -/
def SentKind.kind : SentKind → Kind
  | .call => .call
  | .steer => .steer
  | .bayCommand => .bayCommand
  | .notice => .notice
  | .adminReply => .adminReply

/-- What a sound frame carries beside its kind (Table 1-1): mark byte, destination, source and the 24 payload bytes,
bytes 6 to 29 of the frame. The check word of a sound frame follows from the rest (R2). -/
structure Packet where
  mark    : Byte
  dst     : Half
  src     : Half
  payload : List Byte
  deriving DecidableEq, Repr

/-- The 32 bytes of a slot as received, sound or not (Table 1-1). -/
structure Frame where
  kind   : Byte
  packet : Packet
  check  : Half
  deriving DecidableEq, Repr

/-- The two ends of a power-on reset (R23): RESETN held low, and the reset's end with the straps then read. -/
inductive ResetEvent where
  | held
  | ended (straps : BitVec 10)
  deriving DecidableEq, Repr

/-- The commands: the rows of spec/opcode_table.json. A row that is a frame reaching the part carries that frame; its
kind, and its subcode or request code where Table 1-3 gives one, is the constructor's (log entry 2). -/
inductive Instr where
  | powerOnReset (event : ResetEvent)
  | slotForward (slot : Frame)
  | damagedFrame (slot : Frame)
  | emptySlotFill
  | normalEntryLeft
  | ownFrameStrip (kind : SentKind) (pkt : Packet)
  | callUndelivered (pkt : Packet)
  | steerUndelivered (pkt : Packet)
  | bayCommandUndelivered (pkt : Packet)
  | noticeUndelivered (pkt : Packet)
  | adminReplyUndelivered (pkt : Packet)
  | tick (pkt : Packet)
  | pitch (pkt : Packet)
  | sighting (pkt : Packet)
  | answer (pkt : Packet)
  | arrived (pkt : Packet)
  | departed (pkt : Packet)
  | stepDone (pkt : Packet)
  | stepRefused (pkt : Packet)
  | stepFault (pkt : Packet)
  | cleared (pkt : Packet)
  | blocked (pkt : Packet)
  | unblocked (pkt : Packet)
  | answerTimeout (record : Nat)
  | retryTimeout (record : Nat)
  | persistTimeout (record : Nat)
  | steerConfirmTimeout (carrier : Nat)
  | chillExpiry (bay : Nat)
  | stepTimeout (bay : Nat)
  | waitTimeout (bay : Nat)
  | pacingTimeout (dest : Nat)
  | badRequest (pkt : Packet)
  | tableWrite (pkt : Packet)
  | tableRead (pkt : Packet)
  | orderHead (pkt : Packet)
  | orderLine (pkt : Packet)
  | orderCancel (pkt : Packet)
  | orderPurge (pkt : Packet)
  | orderRead (pkt : Packet)
  | buildRead (pkt : Packet)
  | bayService (pkt : Packet)
  | bayHold (pkt : Packet)
  | buildAbort (pkt : Packet)
  | shortAccept (pkt : Packet)
  | finishResume (pkt : Packet)
  | finishSkip (pkt : Packet)
  | laneState (pkt : Packet)
  | mode (pkt : Packet)
  | restart (pkt : Packet)
  | countersRead (pkt : Packet)
  deriving DecidableEq, Repr

end Sys2Proof
end

