-- ==== Sys2Proof/Machine/State.lean ====
section
/-! DEFINITION. The state of the HB64, block by block (00_scope.md, block diagram), as plain data, and the state after
power-on reset. Fields the spec calls absent hold 0, `none` or the data-carrying constructor that lacks them
(log entry 15). Every default value written here is the power-on value of the rule named. -/

namespace Sys2Proof.Machine

/-- A timer (R17): not running; running with a count of ticks left; or expired, its expiry still to be taken by the
block that owns it (log entry 6). -/
inductive Timer where
  | stopped
  | running (left : Nat)
  | expired
  deriving DecidableEq, Repr

/-! ### Ring Port, Hall Time, Admin Unit (chapter 1) -/

/-- A frame in an insert queue (R12): its kind, destination and payload. Source, mark and check word are added when it
is written into a slot. -/
structure Post where
  kind    : SentKind
  dst     : Nat
  payload : List Byte
  deriving DecidableEq, Repr

/-- The 32 bytes of 0 that the part writes as an Empty slot (R2). -/
def emptyFrame : Frame := ⟨0, ⟨0, 0, 0, List.replicate 24 0⟩, 0⟩

/-- The Ring Port (R3, R12, R23). `slot` is the slot standing in the port on its way downstream (log entries 3 and 9);
`left` counts the normal entries that have left for a slot and whose report (R14) is still to be taken (log entry 5). -/
structure RingPort where
  resetHeld : Bool := false
  straps    : BitVec 10
  slot      : Frame := emptyFrame
  urgent    : List Post := []
  normal    : List Post := []
  left      : Nat := 0
  deriving DecidableEq, Repr

/-- Hall Time (R15). -/
structure HallTime where
  time  : Count32 := 0
  valid : Bool := false
  deriving DecidableEq, Repr

/-- The part mode (R21). -/
inductive Mode where
  | config | run | paused
  deriving DecidableEq, Repr

/-! ### Hall Tables (chapter 2) -/

/-- The four zones in code order (R31). -/
inductive Zone where
  | ambient | chilled | fragile | bottle
  deriving DecidableEq, Repr

/-- An Article Map entry (R32). -/
structure Article where
  valid     : Bool := false
  zone      : Zone := .ambient
  nominal   : Nat := 0
  tolerance : Nat := 0
  homeLane  : Nat := 0
  group     : Nat := 0
  deriving DecidableEq, Repr

/-- The static part of a Lane Directory entry (R36). -/
structure LaneDir where
  node       : Nat := 0
  zone       : Zone := .ambient
  burst      : Nat := 1
  configured : Bool := false
  deriving DecidableEq, Repr

/-- The static part of a Bay Table entry (R39). `zones` is the zone set as written, bit z for zone z. -/
structure BayDir where
  diverter : Nat := 0
  bayNode  : Nat := 0
  arch     : Nat := 0
  spur     : Nat := 4
  zones    : Byte := 0
  deriving DecidableEq, Repr

/-- A step of the Step Store (R47). -/
inductive Step where
  | invalid
  | action (onRefuseContinue : Bool) (code parameter : Nat)
  | wait (ticks : Nat)
  | note (tag : Nat)
  | finish
  deriving DecidableEq, Repr

/-- A routing action (R49). -/
inductive RouteAction where
  | none | holdBay | laneOffline
  deriving DecidableEq, Repr

/-- A Notice Routing entry (R49). -/
structure Routing where
  dest   : Nat := 0
  action : RouteAction := .none
  tags   : Nat := 0
  deriving DecidableEq, Repr

/-- A Notice Destinations entry (R50). -/
structure Destination where
  node   : Nat := 0
  pacing : Nat := 0
  deriving DecidableEq, Repr

/-- The Hall Tables and the manager table (R20, R27 to R52). `consts`, `tares` and `weights` list their entries in
index order; `lapArch` is the one arch that holds the lap mark, 0 for none (R38). -/
structure Tables where
  articles : Map Article := []
  groups   : Map (List Nat) := []
  laneDir  : Map LaneDir := []
  scales   : Map Bool := []
  lapArch  : Nat := 0
  bayDir   : Map BayDir := []
  consts   : List Nat := [30, 3000, 50, 100, 40, 6000, 2, 3, 15, 0]
  tares    : List Nat := [0, 0, 0, 0]
  calendar : Map Nat := []
  weights  : List Nat := [1, 1, 1, 1]
  styles   : Map Nat := []
  steps    : Map Step := []
  routing  : Map Routing := []
  dests    : Map Destination := []
  managers : Map Nat := []
  deriving DecidableEq, Repr

/-! ### Order Book (chapter 3) -/

/-- The mode of a line (R54). -/
inductive LineMode where
  | home | persist | substitute
  deriving DecidableEq, Repr

/-- Why units of a line are short (R54). -/
inductive ShortCause where
  | laneEmpty | persistTimeout | weight | noSubstitute | noLane | invalidArticle | laneOffline
  deriving DecidableEq, Repr

/-- A line record (R54). -/
structure Line where
  article     : Nat
  quantity    : Nat
  mode        : LineMode
  member      : Nat := 0
  held        : Nat := 0
  enRoute     : Nat := 0
  outstanding : Nat := 0
  uncalled    : Nat
  short       : Nat := 0
  cause       : Option ShortCause := none
  deriving DecidableEq, Repr

/-- The state of an order; the bay is present exactly while BOUND (R53, R56). -/
inductive OrderState where
  | draft | waiting | bound (bay : Nat) | done | doneShort | cancelled | failed
  deriving DecidableEq, Repr

/-- An order record (R53). -/
structure Order where
  priority : Nat
  due      : Count32
  style    : Nat
  ceiling  : Nat
  declared : Nat
  tolerant : Bool
  seq      : Count32
  state    : OrderState := .draft
  lines    : Map Line := []
  deriving DecidableEq, Repr

/-- The Order Book (R53, R55): live records by order number. -/
structure OrderBook where
  orders : Map Order := []
  seq    : Count32 := 0
  deriving DecidableEq, Repr

/-! ### Build contexts (chapters 4 and 9) -/

/-- The eight states of a build (Table 4-1). -/
inductive BuildState where
  | outOfService | idle | gathering | shortHold | finishing | finishStopped | clearing | draining
  deriving DecidableEq, Repr

/-- The stop cause of a finish walk (R178). -/
inductive StopCause where
  | none | refused | fault | timeout | badStep
  deriving DecidableEq, Repr

/-- A build context (R70, R178). `order` is 0 while absent; `hold` lists the record numbers of the hold list, first to
last (log entry 14). -/
structure Build where
  state       : BuildState := .outOfService
  order       : Nat := 0
  epoch       : Nat := 0
  committed   : Nat := 0
  hold        : List Nat := []
  reserved    : Nat := 0
  foreigns    : Nat := 0
  chilledHeld : Nat := 0
  orphans     : Nat := 0
  dwell       : Timer := .stopped
  chillCount  : Nat := 0
  pending     : List Post := []
  pendingOut  : Bool := false
  holdFlag    : Bool := false
  blocked     : Bool := false
  pointer     : Nat := 0
  stepTimer   : Timer := .stopped
  waitTimer   : Timer := .stopped
  stopCause   : StopCause := .none
  heldStep    : Option Post := none
  deriving DecidableEq, Repr

/-! ### Hold Pool (chapter 5) -/

/-- The role of a hold record (R101). -/
inductive Role where
  | line (index : Nat)
  | foreign
  deriving DecidableEq, Repr

/-- The return mark of a hold record (R108). -/
inductive ReturnMark where
  | none | wanted | posted
  deriving DecidableEq, Repr

/-- A hold record (R101) less its `next` field, which is read off the list the record stands on (log entry 14). -/
structure HoldRecord where
  carrier      : Nat := 0
  role         : Role := .line 0
  article      : Nat := 0
  weight       : Nat := 0
  verified     : Bool := false
  chilled      : Bool := false
  chillExpired : Bool := false
  mark         : ReturnMark := .none
  arrival      : Count32 := 0
  deriving DecidableEq, Repr

/-- The Hold Pool (R101, R102, R111). -/
structure HoldPool where
  free  : List Nat := List.range' 1 1023
  recs  : Map HoldRecord := []
  armed : Bool := true
  deriving DecidableEq, Repr

/-! ### Call Unit (chapter 6) -/

/-- The state of a call record (R115). -/
inductive CallState where
  | free | queued | deferred | sent | orphan
  deriving DecidableEq, Repr

/-- A call record (R115). -/
structure Call where
  state      : CallState := .free
  generation : Nat := 0
  bay        : Nat := 0
  line       : Nat := 0
  mode       : LineMode := .home
  member     : Nat := 0
  article    : Nat := 0
  nominal    : Nat := 0
  lane       : Nat := 0
  count      : Nat := 0
  sentCount  : Nat := 0
  answer     : Timer := .stopped
  retry      : Timer := .stopped
  persist    : Timer := .stopped
  expire     : Bool := false
  seq        : Count32 := 0
  lastLane   : Nat := 0
  deriving DecidableEq, Repr

/-- The dynamic state of a lane (R118). -/
structure Lane where
  online  : Bool := false
  stockOut : Bool := false
  misses  : Nat := 0
  busy    : Option Nat := none
  queue   : List Nat := []
  deriving DecidableEq, Repr

/-- The Call Unit (R115, R117, R118). -/
structure CallUnit where
  recs  : Map Call := []
  lanes : Map Lane := []
  seq   : Count32 := 0
  deriving DecidableEq, Repr

/-! ### Induction Calendar (chapter 7) -/

/-- The calendar pointer, zone credits in code order, and zone pointer (R145, R147). -/
structure InductionCalendar where
  pointer : Nat := 0
  credits : List Nat := [1, 1, 1, 1]
  zone    : Zone := .ambient
  deriving DecidableEq, Repr

/-! ### Carrier Tracker (chapter 8) -/

/-- The prior state of a carrier held as foreign (R154). -/
inductive Prior where
  | free | surplus | reject
  deriving DecidableEq, Repr

/-- The role of a HELD or RETURNING carrier (R154); the prior state is present with role FOREIGN alone. -/
inductive CarrierRole where
  | line (index : Nat)
  | foreign (prior : Prior)
  deriving DecidableEq, Repr

/-- The state of a carrier with the fields present in it (Table 8-1). -/
inductive CarrierState where
  | free
  | enRoute (bay line : Nat)
  | steered (bay line record : Nat) (confirm : Timer)
  | held (bay record : Nat) (role : CarrierRole)
  | returning (bay record : Nat) (role : CarrierRole)
  | surplus
  | reject
  deriving DecidableEq, Repr

/-- A carrier entry (R154). `article` is 0 while absent; a carrier is verified exactly when `net` is present. -/
structure Carrier where
  state   : CarrierState := .free
  article : Nat := 0
  net     : Option Nat := none
  laps    : Nat := 0
  deriving DecidableEq, Repr

/-! ### Notice Unit (chapter 10) -/

/-- The sixteen kinds of notice (Table 10-1). -/
inductive NoticeKind where
  | bound | done | lineShort | shortHold | finishStop | buildFailed | mismatch | weightFail | lapLimit | foreign
  | chillExpiry | laneOffline | laneEmpty | poolEmpty | tickFault | stepNote
  deriving DecidableEq, Repr

/-- A notice as raised (R191): its kind and the fields of Table 10-1, 0 where the raising rule names none. -/
structure Notice where
  kind    : NoticeKind
  bay     : Nat := 0
  order   : Nat := 0
  article : Nat := 0
  lane    : Nat := 0
  deriving DecidableEq, Repr

/-- An entry of a destination queue (R191): the notice, its user tags and the hall tick, fixed when it is queued. -/
structure NoticeEntry where
  notice : Notice
  tags   : Nat
  tick   : Count32
  deriving DecidableEq, Repr

/-- The posting state of a destination (R195). -/
inductive PostingState where
  | idle | pacing | waiting | stalled
  deriving DecidableEq, Repr

/-- The Notice Unit's state for one destination (R192, R195, R197). -/
structure NoticeQueue where
  queue : List NoticeEntry := []
  lost  : Nat := 0
  timer : Timer := .stopped
  state : PostingState := .idle
  deriving DecidableEq, Repr

/-! ### The part and the machine -/

/-- The whole part, block by block. Indexed stores are sparse: an unlisted key reads as the power-on entry
(log entry 13). -/
structure Part where
  ring      : RingPort
  counters  : Map Nat := []
  hall      : HallTime := {}
  mode      : Mode := .config
  tables    : Tables := {}
  useCounts : Map Nat := []
  book      : OrderBook := {}
  builds    : Map Build := []
  pool      : HoldPool := {}
  calls     : CallUnit := {}
  cal       : InductionCalendar := {}
  carriers  : Map Carrier := []
  notices   : Map NoticeQueue := []
  deriving DecidableEq, Repr

/-- The machine: the commands waiting, first in first out, and the part. -/
structure State where
  pending : List Instr
  part    : Part
  deriving DecidableEq, Repr

/-- Why the machine would stop with a fault: no constructor, for the spec names no event that stops the part. -/
inductive Fault
  deriving DecidableEq, Repr

/-- Why a command has no meaning. -/
inductive Refusal where
  /-- Raised by an arm of `exec` that has no meaning yet; no arm is in that case. Safe. -/
  | notModelled (mnemonic : String)
  /-- Raised by SLOT_FORWARD for a slot that the part takes, strips, reads or replaces: another row is its command
  (R4; log entry 11). Safe: the machine stops where the part goes on by that other row. -/
  | slotActedOn
  /-- Raised by DAMAGED_FRAME for a slot whose check word is right (R2, R5; log entry 12). Safe. -/
  | slotSound
  /-- Raised by BAD_REQUEST for a request code of Table 1-3: that code's own row is its command (R18; log entry 12).
  Safe. -/
  | knownRequest
  deriving DecidableEq, Repr

/-- Every block at its power-on value (R23, R52, R69, R70, R102, R114, R115, R118, R153, R154, R198) with the
node-number straps just read. -/
def Part.powerOn (straps : BitVec 10) : Part := { ring := { straps := straps } }

/-- The machine right after a power-on reset. The straps are pins whose value the spec cannot give; the model reads
1, a node number (DESIGN CHOICE, log entry 8). -/
def State.reset : State := { pending := [], part := Part.powerOn 1 }

end Sys2Proof.Machine
end

