-- ==== Sys2Proof/Machine/Operands.lean ====
section
/-! DEFINITION. The operand forms: the fields of the frames the part receives (Tables 1-1 to 1-3), the frames it
builds, and the check word. Byte positions are those of the frame; multi-byte fields are most significant byte
first. -/

namespace Sys2Proof

/-! ### Codes (R1, Table 1-3) -/

/-- The kind code of each kind (R1). -/
def Kind.code : Kind → Byte
  | .pitch => 0x11
  | .tick => 0x12
  | .sighting => 0x21
  | .call => 0x31
  | .answer => 0x32
  | .steer => 0x41
  | .bayCommand => 0x51
  | .bayReport => 0x52
  | .notice => 0x61
  | .adminRequest => 0x71
  | .adminReply => 0x72

/-- The kind a code names, if the part exchanges it (R1). -/
def Kind.ofCode (c : Byte) : Option Kind :=
  [Kind.pitch, .tick, .sighting, .call, .answer, .steer, .bayCommand, .bayReport, .notice, .adminRequest,
    .adminReply].find? (fun k => k.code = c)

/-- The kind as one the part sends, if it is (R8). -/
def Kind.sent? : Kind → Option SentKind
  | .call => some .call
  | .steer => some .steer
  | .bayCommand => some .bayCommand
  | .notice => some .notice
  | .adminReply => some .adminReply
  | _ => none

/-- The Bay Report subcodes (Table 1-3). -/
inductive ReportCode where
  | arrived | departed | stepDone | stepRefused | stepFault | cleared | blocked | unblocked
  deriving DecidableEq, Repr

/-- The code of a Bay Report subcode (Table 1-3). -/
def ReportCode.code : ReportCode → Byte
  | .arrived => 1
  | .departed => 2
  | .stepDone => 3
  | .stepRefused => 4
  | .stepFault => 5
  | .cleared => 6
  | .blocked => 7
  | .unblocked => 8

/-- The Admin Request codes (Table 1-3). -/
inductive RequestCode where
  | tableWrite | tableRead | orderHead | orderLine | orderCancel | orderPurge | orderRead | buildRead | bayService
  | bayHold | buildAbort | shortAccept | finishResume | finishSkip | laneState | mode | restart | countersRead
  deriving DecidableEq, Repr

/-- Every Admin Request code of Table 1-3. -/
def RequestCode.all : List RequestCode :=
  [.tableWrite, .tableRead, .orderHead, .orderLine, .orderCancel, .orderPurge, .orderRead, .buildRead, .bayService,
    .bayHold, .buildAbort, .shortAccept, .finishResume, .finishSkip, .laneState, .mode, .restart, .countersRead]

/-- The code of an Admin Request (Table 1-3). -/
def RequestCode.code : RequestCode → Byte
  | .tableWrite => 0x01
  | .tableRead => 0x02
  | .orderHead => 0x10
  | .orderLine => 0x11
  | .orderCancel => 0x12
  | .orderPurge => 0x13
  | .orderRead => 0x14
  | .buildRead => 0x20
  | .bayService => 0x21
  | .bayHold => 0x22
  | .buildAbort => 0x23
  | .shortAccept => 0x24
  | .finishResume => 0x25
  | .finishSkip => 0x26
  | .laneState => 0x30
  | .mode => 0x40
  | .restart => 0x41
  | .countersRead => 0x42

/-- The request a code names (Table 1-3). -/
def RequestCode.ofCode (c : Byte) : Option RequestCode := RequestCode.all.find? (fun r => r.code = c)

/-! ### Fields of a received frame -/

/-- Byte `i` of the frame, 6 to 29. -/
def Packet.byte (p : Packet) (i : Nat) : Byte := p.payload.getD (i - 6) 0

/-- Byte `i` as a number. -/
def Packet.u8 (p : Packet) (i : Nat) : Nat := (p.byte i).toNat

/-- Bytes `i` and `i + 1` as a number. -/
def Packet.u16 (p : Packet) (i : Nat) : Nat := p.u8 i * 256 + p.u8 (i + 1)

/-- Bytes `i` to `i + 3` as a number. -/
def Packet.u32 (p : Packet) (i : Nat) : Nat := p.u16 i * 65536 + p.u16 (i + 2)

/-- `n` two-byte ids, the first at byte `i`. -/
def Packet.ids (p : Packet) (i n : Nat) : List Nat := (List.range n).map (fun k => p.u16 (i + 2 * k))

/-- The frame with byte 6, the subcode or request code, set. -/
def Packet.withCode (p : Packet) (c : Byte) : Packet := { p with payload := c :: p.payload.tail }

/-- The Taken mark (R1). -/
def Packet.taken (p : Packet) : Bool := p.mark.getLsbD 0

/-- The record index of a call tag: bits 0 to 8 (Table 1-2). -/
def tagIndex (tag : Nat) : Nat := tag % 512
/-- The pointer of a step tag: bits 0 to 10 (Table 1-2). -/
def tagPointer (tag : Nat) : Nat := tag % 2048
/-- The generation or epoch of a tag: bits 12 to 15 (Table 1-2). -/
def tagHigh (tag : Nat) : Nat := tag / 4096 % 16
/-- Bits 9 to 11 of a call tag are zero (R7). -/
def callTagClear (tag : Nat) : Bool := tag / 512 % 8 = 0
/-- Bit 11 of a step tag is clear (R183). -/
def stepTagClear (tag : Nat) : Bool := tag / 2048 % 2 = 0
/-- The call tag of a record's index and generation (Table 1-2, R116). -/
def callTag (index generation : Nat) : Nat := index + 4096 * generation
/-- The step tag of a finish pointer and build epoch (Table 1-2, R182). -/
def stepTag (pointer epoch : Nat) : Nat := pointer + 4096 * epoch

/-- The check fields of an Answer (R7): outcome 1 or 2, stock 1 or 2, at most 4 carriers, bits 9 to 11 of the tag
zero. -/
def answerChecks (p : Packet) : Bool :=
  (p.u8 8 = 1 || p.u8 8 = 2) && (p.u8 9 = 1 || p.u8 9 = 2) && decide (p.u8 10 ≤ 4) && callTagClear (p.u16 6)

/-- The check field of a Bay Report (R7): subcode 1 to 8. -/
def reportChecks (p : Packet) : Bool := decide (1 ≤ p.u8 6) && decide (p.u8 6 ≤ 8)

/-- Outcome code 1 PLACED, 2 FAULT (Table 1-3). -/
def outcomePlaced (p : Packet) : Bool := p.u8 8 = 1
/-- Stock code 2 EMPTY, 1 MORE (Table 1-3). -/
def stockEmpty (p : Packet) : Bool := p.u8 9 = 2

/-! ### The check word (R2) -/

/-- The sum, modulo 65536, of the 16-bit words that a list of bytes spells. -/
def wordSum : List Byte → Half
  | [] => 0
  | [a] => a ++ (0 : Byte)
  | a :: b :: rest => a ++ b + wordSum rest

/-- Words 0 to 14 of a frame, summed modulo 65536. -/
def Packet.sum (kind : Byte) (p : Packet) : Half := kind ++ p.mark + p.dst + p.src + wordSum p.payload

/-- A frame is sound when the sum of its sixteen words is 0 (R2). -/
def Frame.sound (f : Frame) : Bool := f.packet.sum f.kind + f.check = 0

/-- The frame written into a slot: its check word makes it sound (R2). -/
def Packet.seal (kind : Byte) (p : Packet) : Frame := ⟨kind, p, - p.sum kind⟩

/-- Setting the Taken mark of a frame raises word 0 by 1 and lowers the check word by 1 (R2). -/
def Frame.take (f : Frame) : Frame :=
  { f with packet := { f.packet with mark := f.packet.mark ||| 1 }, check := f.check - 1 }

/-! ### Payloads the part builds (Table 1-2); bytes the layout does not name are 0 (R1) -/

/-- One byte. -/
def b8 (n : Nat) : List Byte := [BitVec.ofNat 8 n]
/-- Two bytes, most significant first. -/
def b16 (n : Nat) : List Byte := [BitVec.ofNat 8 (n / 256), BitVec.ofNat 8 n]
/-- Four bytes, most significant first. -/
def b32 (n : Nat) : List Byte := b16 (n / 65536) ++ b16 n
/-- A flag as a byte. -/
def bFlag (f : Bool) : List Byte := b8 (if f then 1 else 0)

/-- The list cut or filled with 0 to `n` bytes. -/
def fill (n : Nat) (l : List Byte) : List Byte := l.take n ++ List.replicate (n - l.length) 0

/-- A 24-byte payload (R1). -/
def payload (l : List Byte) : List Byte := fill 24 l

/-- Call payload: tag, article, count. -/
def callPayload (tag article count : Nat) : List Byte := payload (b16 tag ++ b16 article ++ b8 count)
/-- Steer payload: carrier, bay. -/
def steerPayload (carrier bay : Nat) : List Byte := payload (b16 carrier ++ b8 bay)
/-- STEP payload: subcode 1, step tag, action code, parameter. -/
def stepPayload (tag code parameter : Nat) : List Byte := payload (b8 1 ++ b16 tag ++ b8 code ++ b16 parameter)
/-- RETURN payload: subcode 2, carrier count, carrier ids. -/
def returnPayload (carriers : List Nat) : List Byte :=
  payload (b8 2 ++ b8 carriers.length ++ (carriers.map b16).flatten)
/-- RELEASE payload: subcode 3, carriers to pack. -/
def releasePayload (pack : Nat) : List Byte := payload (b8 3 ++ b8 pack)
/-- Admin Reply payload: request code, request tag, status, data. -/
def replyPayload (code tag : Byte) (status : Nat) (data : List Byte) : List Byte :=
  payload ([code, tag] ++ b8 status ++ data)

/-- The carrier ids a RETURN payload names: at most six (Table 1-2; log entry 29). -/
def returnIds (payload : List Byte) : List Nat :=
  let p : Packet := ⟨0, 0, 0, payload⟩
  p.ids 8 (min (p.u8 7) 6)

end Sys2Proof

namespace Sys2Proof.Machine

/-- Zone codes (R31). -/
def Zone.code : Zone → Nat
  | .ambient => 0
  | .chilled => 1
  | .fragile => 2
  | .bottle => 3

/-- The zone a code names (R31). -/
def Zone.ofCode : Nat → Option Zone
  | 0 => some .ambient
  | 1 => some .chilled
  | 2 => some .fragile
  | 3 => some .bottle
  | _ => none

/-- The zone after a zone in cyclic order (R31). -/
def Zone.next : Zone → Zone
  | .ambient => .chilled
  | .chilled => .fragile
  | .fragile => .bottle
  | .bottle => .ambient

/-- MODE parameter codes (Table 1-3). -/
def Mode.ofCode : Nat → Option Mode
  | 0 => some .config
  | 1 => some .run
  | 2 => some .paused
  | _ => none

/-- Notice kind codes (Table 1-3). -/
def NoticeKind.code : NoticeKind → Nat
  | .bound => 1
  | .done => 2
  | .lineShort => 3
  | .shortHold => 4
  | .finishStop => 5
  | .buildFailed => 6
  | .mismatch => 7
  | .weightFail => 8
  | .lapLimit => 9
  | .foreign => 10
  | .chillExpiry => 11
  | .laneOffline => 12
  | .laneEmpty => 13
  | .poolEmpty => 14
  | .tickFault => 15
  | .stepNote => 16

/-- Order state codes in reply data (section 3.3). -/
def OrderState.code : OrderState → Nat
  | .draft => 1
  | .waiting => 2
  | .bound _ => 3
  | .done => 4
  | .doneShort => 5
  | .cancelled => 6
  | .failed => 7

/-- The bay of an order's state, 0 for none (R53). -/
def OrderState.bay : OrderState → Nat
  | .bound b => b
  | _ => 0

/-- Short cause codes in reply data (section 3.3). -/
def causeCode : Option ShortCause → Nat
  | none => 0
  | some .laneEmpty => 1
  | some .persistTimeout => 2
  | some .weight => 3
  | some .noSubstitute => 4
  | some .noLane => 5
  | some .invalidArticle => 6
  | some .laneOffline => 7

/-- Line mode codes (Table 3-1). -/
def LineMode.code : LineMode → Nat
  | .home => 0
  | .persist => 1
  | .substitute => 2

/-- The line mode a code names (Table 3-1). -/
def LineMode.ofCode : Nat → Option LineMode
  | 0 => some .home
  | 1 => some .persist
  | 2 => some .substitute
  | _ => none

/-- Build state codes in reply data (section 4.1). -/
def BuildState.code : BuildState → Nat
  | .outOfService => 0
  | .idle => 1
  | .gathering => 2
  | .shortHold => 3
  | .finishing => 4
  | .finishStopped => 5
  | .clearing => 6
  | .draining => 7

/-- Stop cause codes (Table 5-2, R186). -/
def StopCause.code : StopCause → Nat
  | .none => 0
  | .refused => 1
  | .fault => 2
  | .timeout => 3
  | .badStep => 4

/-- Return mark codes (Table 5-2). -/
def ReturnMark.code : ReturnMark → Nat
  | .none => 0
  | .wanted => 1
  | .posted => 2

/-- Routing action codes (R49). -/
def RouteAction.code : RouteAction → Nat
  | .none => 0
  | .holdBay => 1
  | .laneOffline => 2

/-- The routing action a code names (R49). -/
def RouteAction.ofCode : Nat → Option RouteAction
  | 0 => some .none
  | 1 => some .holdBay
  | 2 => some .laneOffline
  | _ => Option.none

/-- Admin status codes (Table 1-3). -/
inductive Status where
  | ok | notManager | badRequest | badTable | badIndex | badValue | inUse | badState | full | duplicate | unknownOrder
  deriving DecidableEq, Repr

/-- The code of an Admin status (Table 1-3). -/
def Status.code : Status → Nat
  | .ok => 0
  | .notManager => 1
  | .badRequest => 2
  | .badTable => 3
  | .badIndex => 4
  | .badValue => 5
  | .inUse => 6
  | .badState => 7
  | .full => 8
  | .duplicate => 9
  | .unknownOrder => 10

/-- The Notice frame payload of an entry and the lost count it carries (Table 1-2, R195). -/
def noticePayload (e : NoticeEntry) (lost : Nat) : List Byte :=
  payload (b8 e.notice.kind.code ++ b8 e.notice.bay ++ b32 e.notice.order ++ b16 e.notice.article ++ b8 e.notice.lane
    ++ b16 e.tags ++ b8 lost ++ b32 e.tick.toNat)

/-- The fields of a Sighting as R156 reads them. -/
structure Sight where
  arch    : Nat
  carrier : Nat
  ctype   : Nat
  read    : Nat
  gross   : Nat
  deriving DecidableEq, Repr

/-- The Sighting a frame carries (Table 1-2). -/
def sightOf (p : Packet) : Sight := ⟨p.u8 6, p.u16 7, p.u8 9, p.u16 10, p.u16 12⟩

/-- What a Sighting read (R156): empty, an article, or nothing. -/
inductive ArticleRead where
  | empty
  | article (a : Nat)
  | noRead
  deriving DecidableEq, Repr

/-- The article field of a Sighting as R156 takes it. -/
def Sight.articleRead (g : Sight) : ArticleRead :=
  if g.read = 0 then .empty else if g.read ≤ 8191 then .article g.read else .noRead

/-- A carrier id that names a carrier (R154). -/
def carrierId (c : Nat) : Bool := decide (1 ≤ c) && decide (c ≤ 4095)

end Sys2Proof.Machine
end

