-- ==== Sys2Proof/Decode.lean ====
section
/-! DEFINITION. From slots to commands and back. The opcode table gives no row any bits, so no table word spells a
command. What the spec does give is the 32 bytes of a slot (Table 1-1): `Frame.ofBytes` and `Frame.bytes` read and write
them, `commandOf` says which row of the table a slot that reaches the part is, and `Instr.slot` writes the slot of a
command that is one. -/

namespace Sys2Proof

/-- The command a table word spells: none, for no row of the table gives bits. -/
def decodeTableWord (_nbits _w : Nat) : Option Instr := none

/-! ### The 32 bytes of a slot (Table 1-1) -/

/-- A 16-bit field as two bytes, most significant byte first. -/
def halfBytes (h : Half) : List Byte := [h.extractLsb' 8 8, h.extractLsb' 0 8]

/-- The 32 bytes of a slot: kind, mark, destination, source, payload, check word. -/
def Frame.bytes (f : Frame) : List Byte :=
  [f.kind, f.packet.mark] ++ halfBytes f.packet.dst ++ halfBytes f.packet.src ++ f.packet.payload ++ halfBytes f.check

/-- The slot that 32 bytes spell; another number of bytes is no slot. -/
def Frame.ofBytes (l : List Byte) : Option Frame :=
  if l.length = 32 then
    let half (i : Nat) : Half := l.getD i 0 ++ l.getD (i + 1) 0
    some ⟨l.getD 0 0, ⟨l.getD 1 0, half 2, half 4, (l.drop 6).take 24⟩, half 30⟩
  else none

/-! ### Which command a slot is (R1, R4 to R10, R18) -/

/-- The row of an undelivered own frame, by its kind (R8 to R11). -/
def undeliveredCommand (kind : SentKind) (pkt : Packet) : Instr :=
  match kind with
  | .call => .callUndelivered pkt
  | .steer => .steerUndelivered pkt
  | .bayCommand => .bayCommandUndelivered pkt
  | .notice => .noticeUndelivered pkt
  | .adminReply => .adminReplyUndelivered pkt

/-- An own frame is undelivered (R8): unicast, with its Taken mark clear. -/
def Packet.undelivered (pkt : Packet) : Bool := decide (pkt.dst ≠ Config.broadcast) && !pkt.taken

/-- The row of a Bay Report, by its subcode; a subcode of no row is left untaken, or passed (R7). -/
def reportCommand (f : Frame) : Instr :=
  match f.packet.u8 6 with
  | 1 => .arrived f.packet
  | 2 => .departed f.packet
  | 3 => .stepDone f.packet
  | 4 => .stepRefused f.packet
  | 5 => .stepFault f.packet
  | 6 => .cleared f.packet
  | 7 => .blocked f.packet
  | 8 => .unblocked f.packet
  | _ => .slotForward f

/-- The row of an Admin Request, by its request code (R18). -/
def requestCommand (pkt : Packet) : Instr :=
  match RequestCode.ofCode (pkt.byte 6) with
  | none => .badRequest pkt
  | some .tableWrite => .tableWrite pkt
  | some .tableRead => .tableRead pkt
  | some .orderHead => .orderHead pkt
  | some .orderLine => .orderLine pkt
  | some .orderCancel => .orderCancel pkt
  | some .orderPurge => .orderPurge pkt
  | some .orderRead => .orderRead pkt
  | some .buildRead => .buildRead pkt
  | some .bayService => .bayService pkt
  | some .bayHold => .bayHold pkt
  | some .buildAbort => .buildAbort pkt
  | some .shortAccept => .shortAccept pkt
  | some .finishResume => .finishResume pkt
  | some .finishSkip => .finishSkip pkt
  | some .laneState => .laneState pkt
  | some .mode => .mode pkt
  | some .restart => .restart pkt
  | some .countersRead => .countersRead pkt

/-- A slot of a kind the part sends (R8): its own frame come round, delivered or not, or another node's. -/
def sentCommand (node : Half) (kind : SentKind) (f : Frame) : Instr :=
  if f.packet.src = node then
    if f.packet.undelivered then undeliveredCommand kind f.packet else .ownFrameStrip kind f.packet
  else .slotForward f

/-- The command that a slot reaching a part with a node number is. Every slot is one: an unsound slot is DAMAGED_FRAME
(R5), a slot that holds no frame of a kind the part exchanges is SLOT_FORWARD (R1, R4), and the others are the row of
their kind. -/
def commandOf (node : Half) (f : Frame) : Instr :=
  if !f.sound then .damagedFrame f
  else
    match Kind.ofCode f.kind with
    | none => .slotForward f
    | some .pitch => .pitch f.packet
    | some .tick => .tick f.packet
    | some .sighting => .sighting f.packet
    | some .answer => .answer f.packet
    | some .bayReport => reportCommand f
    | some .adminRequest => requestCommand f.packet
    | some .call => sentCommand node .call f
    | some .steer => sentCommand node .steer f
    | some .bayCommand => sentCommand node .bayCommand f
    | some .notice => sentCommand node .notice f
    | some .adminReply => sentCommand node .adminReply f

/-- The slot that a command is, for the rows that are a slot reaching the part. -/
def Instr.slot (i : Instr) : Option Frame :=
  match i with
  | .powerOnReset _ => none
  | .slotForward f => some f
  | .damagedFrame f => some f
  | .emptySlotFill => none
  | .normalEntryLeft => none
  | .ownFrameStrip kind pkt => some (pkt.seal kind.kind.code)
  | .callUndelivered pkt => some (pkt.seal Kind.call.code)
  | .steerUndelivered pkt => some (pkt.seal Kind.steer.code)
  | .bayCommandUndelivered pkt => some (pkt.seal Kind.bayCommand.code)
  | .noticeUndelivered pkt => some (pkt.seal Kind.notice.code)
  | .adminReplyUndelivered pkt => some (pkt.seal Kind.adminReply.code)
  | .tick pkt => some (pkt.seal Kind.tick.code)
  | .pitch pkt => some (pkt.seal Kind.pitch.code)
  | .sighting pkt => some (pkt.seal Kind.sighting.code)
  | .answer pkt => some (pkt.seal Kind.answer.code)
  | .arrived pkt => some (pkt.seal Kind.bayReport.code)
  | .departed pkt => some (pkt.seal Kind.bayReport.code)
  | .stepDone pkt => some (pkt.seal Kind.bayReport.code)
  | .stepRefused pkt => some (pkt.seal Kind.bayReport.code)
  | .stepFault pkt => some (pkt.seal Kind.bayReport.code)
  | .cleared pkt => some (pkt.seal Kind.bayReport.code)
  | .blocked pkt => some (pkt.seal Kind.bayReport.code)
  | .unblocked pkt => some (pkt.seal Kind.bayReport.code)
  | .answerTimeout _ => none
  | .retryTimeout _ => none
  | .persistTimeout _ => none
  | .steerConfirmTimeout _ => none
  | .chillExpiry _ => none
  | .stepTimeout _ => none
  | .waitTimeout _ => none
  | .pacingTimeout _ => none
  | .badRequest pkt => some (pkt.seal Kind.adminRequest.code)
  | .tableWrite pkt => some (pkt.seal Kind.adminRequest.code)
  | .tableRead pkt => some (pkt.seal Kind.adminRequest.code)
  | .orderHead pkt => some (pkt.seal Kind.adminRequest.code)
  | .orderLine pkt => some (pkt.seal Kind.adminRequest.code)
  | .orderCancel pkt => some (pkt.seal Kind.adminRequest.code)
  | .orderPurge pkt => some (pkt.seal Kind.adminRequest.code)
  | .orderRead pkt => some (pkt.seal Kind.adminRequest.code)
  | .buildRead pkt => some (pkt.seal Kind.adminRequest.code)
  | .bayService pkt => some (pkt.seal Kind.adminRequest.code)
  | .bayHold pkt => some (pkt.seal Kind.adminRequest.code)
  | .buildAbort pkt => some (pkt.seal Kind.adminRequest.code)
  | .shortAccept pkt => some (pkt.seal Kind.adminRequest.code)
  | .finishResume pkt => some (pkt.seal Kind.adminRequest.code)
  | .finishSkip pkt => some (pkt.seal Kind.adminRequest.code)
  | .laneState pkt => some (pkt.seal Kind.adminRequest.code)
  | .mode pkt => some (pkt.seal Kind.adminRequest.code)
  | .restart pkt => some (pkt.seal Kind.adminRequest.code)
  | .countersRead pkt => some (pkt.seal Kind.adminRequest.code)

end Sys2Proof
end

