-- ==== Sys2Proof/Machine/Map.lean ====
section
/-! DEFINITION. Sparse maps with rising keys: the one place that says how the part's indexed stores are read and
written. `get d` reads an unlisted key as `d`; `set d` never lists an entry equal to `d`, so that equal stores are
equal data (log entry 13). -/

namespace Sys2Proof.Machine

/-- The entry listed for a key. -/
def Map.find? {α : Type} : Map α → Nat → Option α
  | [], _ => none
  | (k, v) :: rest, key => if k = key then some v else Map.find? rest key

/-- The map with `v` listed for `key`, keys kept rising. -/
def Map.put {α : Type} : Map α → Nat → α → Map α
  | [], key, v => [(key, v)]
  | (k, w) :: rest, key, v =>
    if key < k then (key, v) :: (k, w) :: rest
    else if key = k then (key, v) :: rest
    else (k, w) :: Map.put rest key v

/-- The map without an entry for `key`. -/
def Map.erase {α : Type} : Map α → Nat → Map α
  | [], _ => []
  | (k, v) :: rest, key => if k = key then Map.erase rest key else (k, v) :: Map.erase rest key

/-- What `key` reads as in a store whose unlisted entries are `d`. -/
def Map.get {α : Type} (d : α) (m : Map α) (key : Nat) : α := (Map.find? m key).getD d

/-- The store after a write of `v` to `key`; writing what an unlisted key reads as removes the entry. -/
def Map.set {α : Type} [DecidableEq α] (d : α) (m : Map α) (key : Nat) (v : α) : Map α :=
  if v = d then Map.erase m key else Map.put m key v

/-- Every listed entry replaced by its image. -/
def Map.mapValues {α : Type} (f : α → α) (m : Map α) : Map α := m.map (fun kv => (kv.1, f kv.2))

/-- The keys are strictly rising. -/
def Map.rising {α : Type} : Map α → Bool
  | [] => true
  | [_] => true
  | (j, _) :: (k, w) :: rest => decide (j < k) && Map.rising ((k, w) :: rest)

/-- The canonical form: rising keys, and no entry equal to what an unlisted key reads as. -/
def Map.wf {α : Type} [DecidableEq α] (d : α) (m : Map α) : Bool :=
  Map.rising m && m.all (fun kv => decide (kv.2 ≠ d))

end Sys2Proof.Machine
end

