-- ==== Sys2Proof/Machine/Flags.lean ====
section
/-! DEFINITION. The tests and flag computations over plain values: timers, zone sets, the urgency key, the weight band,
lines and hold records, and the flag bytes of replies. -/

namespace Sys2Proof.Machine

/-! ### Timers (R17) -/

/-- A timer advanced by a step `s`: `v - s` is left when `v > s`, otherwise it expires. -/
def Timer.advance (s : Nat) : Timer → Timer
  | .running v => if v > s then .running (v - s) else .expired
  | t => t

/-- The count a reply shows: 0 when the timer is not running. -/
def Timer.count : Timer → Nat
  | .running v => v
  | _ => 0

/-- The timer has been started and neither stopped nor had its expiry taken (R184, R89; log entry 6). -/
def Timer.live : Timer → Bool
  | .stopped => false
  | _ => true

/-- The timer runs with a count (R17). -/
def Timer.isRunning : Timer → Bool
  | .running _ => true
  | _ => false

/-! ### Choices -/

/-- The first element of a list that no other element betters: ties go to the earlier one. -/
def best {α : Type} (better : α → α → Bool) : List α → Option α
  | [] => none
  | a :: rest =>
    match best better rest with
    | none => some a
    | some b => if better b a then some b else some a

/-- The urgency key (R63): lower priority number, then earlier due tick, then lower book sequence number, the last two
as unsigned 32-bit numbers. -/
def moreUrgent (a b : Order) : Bool :=
  decide (a.priority < b.priority) ||
    (a.priority = b.priority &&
      (decide (a.due.toNat < b.due.toNat) ||
        (a.due = b.due && decide (a.seq.toNat < b.seq.toNat))))

/-- The key leaves the two orders equal (R63). -/
def equallyUrgent (a b : Order) : Bool := a.priority = b.priority && a.due = b.due && a.seq = b.seq

/-! ### Zones, lines, records -/

/-- A zone is in a zone set (R31). -/
def inZones (zones : Byte) (z : Zone) : Bool := zones.getLsbD z.code

/-- A line is settled (R54). -/
def Line.settled (l : Line) : Bool := l.enRoute = 0 && l.outstanding = 0 && l.uncalled = 0

/-- A line as binding and requeue reset it (R54, R66). -/
def Line.reset (l : Line) : Line :=
  { article := l.article, quantity := l.quantity, mode := l.mode, uncalled := l.quantity }

/-- A new line record (R54, R58). -/
def newLine (article quantity : Nat) (mode : LineMode) : Line :=
  { article := article, quantity := quantity, mode := mode, uncalled := quantity }

/-- Every line is settled (R80). -/
def Order.settled (o : Order) : Bool := o.lines.all (fun kv => kv.2.settled)

/-- Some line is SHORT (R54, R80): units short, once every line is settled. -/
def Order.anyShort (o : Order) : Bool := o.lines.any (fun kv => decide (0 < kv.2.short))

/-- The order is in a terminal state (R56). -/
def OrderState.terminal : OrderState → Bool
  | .done => true
  | .doneShort => true
  | .cancelled => true
  | .failed => true
  | _ => false

/-- The record has role LINE (R101). -/
def HoldRecord.isLine (r : HoldRecord) : Bool :=
  match r.role with
  | .line _ => true
  | .foreign => false

/-- The record is a LINE record not marked for return: part of the hamper (R83, section 5.3). -/
def HoldRecord.packed (r : HoldRecord) : Bool := r.isLine && r.mark = .none

/-- A carrier that an Answer may take over (R129): FREE, SURPLUS or REJECT. -/
def Carrier.loose (c : Carrier) : Bool :=
  match c.state with
  | .free => true
  | .surplus => true
  | .reject => true
  | _ => false

/-- A state of a build in which its order may be aborted (R92). -/
def BuildState.abortable : BuildState → Bool
  | .gathering => true
  | .shortHold => true
  | .finishing => true
  | .finishStopped => true
  | _ => false

/-! ### The weight arithmetic (R33, R159) -/

/-- The allowance of an article: the floor of nominal times tolerance over 64, plus the floor allowance. -/
def allowance (a : Article) (floorAllowance : Nat) : Nat := a.nominal * a.tolerance / 64 + floorAllowance

/-- A net lies within the article's band, both bounds included. Subtraction stops at 0, so the lower bound is 0 when
the allowance is at least the nominal. -/
def inBand (a : Article) (floorAllowance net : Nat) : Bool :=
  decide (a.nominal - allowance a floorAllowance ≤ net) && decide (net ≤ a.nominal + allowance a floorAllowance)

/-- The ceiling test (R123): committed weight, units, nominal, ceiling. -/
def fits (committed units nominal ceiling : Nat) : Bool := decide (committed + units * nominal ≤ ceiling)

/-- How many units a HOME or PERSIST call may ask for (R123): all `k` when the test passes, otherwise the floor of
(C - W) / N when W < C and 0 when W ≥ C. -/
def fitting (committed k nominal ceiling : Nat) : Nat :=
  if fits committed k nominal ceiling then k
  else if committed < ceiling then (ceiling - committed) / nominal else 0

/-! ### Clamps and flag bytes -/

/-- A value outside its range is replaced by the nearer end of the range (00_scope.md). -/
def clamp (lo hi v : Nat) : Nat := min hi (max lo v)

/-- Flags as bits of a byte, bit 0 first. -/
def flagByte (flags : List Bool) : Nat := flags.foldr (fun f acc => (if f then 1 else 0) + 2 * acc) 0

/-- The flags byte of the context form of BUILD_READ (Table 5-2). -/
def Build.flags (b : Build) : Nat := flagByte [b.holdFlag, b.blocked, b.pendingOut, b.dwell.isRunning]

/-- The flags byte of the hold-record form of BUILD_READ (Table 5-2). -/
def HoldRecord.flags (r : HoldRecord) : Nat := flagByte [r.verified, r.chilled, r.chillExpired]

/-- The mask of lines present in the header form of ORDER_READ (Table 3-1). -/
def Order.lineMask (o : Order) : Nat := flagByte ((List.range 16).map (fun i => (Map.find? o.lines i).isSome))

end Sys2Proof.Machine
end

