-- ==== Sys2Proof/Machine/Ops.lean ====
section
/-! DEFINITION. The named operations over the part's stores: reading and writing one entry, counting, posting to the
insert queues, the hall's constants, and advancing every timer. -/

namespace Sys2Proof.Machine

/-! ### Counters (R25) -/

/-- The counters of Table 1-5. -/
inductive Counter where
  | damaged
  | undelivered (kind : SentKind)
  | untaken | deferred | tickFaults | withheldPool | withheldSpur | withheldQueue | lateAnswers | conflicts | mismatches
  | weightFails | lightReadings | lapLimits | foreignArrivals | foreignUnrecorded | callPoolEmpty | opportunitiesLost
  | unmatched | packedDifferences | ignoredSightings
  deriving DecidableEq, Repr

/-- The index of a counter (Table 1-5). -/
def Counter.index : Counter → Nat
  | .damaged => 0
  | .undelivered .call => 1
  | .undelivered .steer => 2
  | .undelivered .bayCommand => 3
  | .undelivered .notice => 4
  | .undelivered .adminReply => 5
  | .untaken => 6
  | .deferred => 7
  | .tickFaults => 8
  | .withheldPool => 9
  | .withheldSpur => 10
  | .withheldQueue => 11
  | .lateAnswers => 12
  | .conflicts => 13
  | .mismatches => 14
  | .weightFails => 15
  | .lightReadings => 16
  | .lapLimits => 17
  | .foreignArrivals => 18
  | .foreignUnrecorded => 19
  | .callPoolEmpty => 20
  | .opportunitiesLost => 21
  | .unmatched => 22
  | .packedDifferences => 23
  | .ignoredSightings => 24

/-- What a counter index holds. -/
def Part.counter (p : Part) (i : Nat) : Nat := Map.get 0 p.counters i

/-- Count: the counter rises by 1 and stays at its maximum (R25). -/
def Part.count (c : Counter) (p : Part) : Part :=
  { p with counters := Map.set 0 p.counters c.index (min Config.counterMax (p.counter c.index + 1)) }

/-! ### Reading and writing one entry -/

/-- The build context of a bay (R70). -/
def Part.build (p : Part) (b : Nat) : Build := Map.get {} p.builds b
/-- A build context changed. -/
def Part.modBuild (b : Nat) (f : Build → Build) (p : Part) : Part :=
  { p with builds := Map.set {} p.builds b (f (p.build b)) }

/-- The call record of an index (R115). -/
def Part.call (p : Part) (i : Nat) : Call := Map.get {} p.calls.recs i
/-- A call record changed. -/
def Part.modCall (i : Nat) (f : Call → Call) (p : Part) : Part :=
  { p with calls := { p.calls with recs := Map.set {} p.calls.recs i (f (p.call i)) } }

/-- The dynamic state of a lane (R118). -/
def Part.lane (p : Part) (l : Nat) : Lane := Map.get {} p.calls.lanes l
/-- A lane's dynamic state changed. -/
def Part.modLane (l : Nat) (f : Lane → Lane) (p : Part) : Part :=
  { p with calls := { p.calls with lanes := Map.set {} p.calls.lanes l (f (p.lane l)) } }

/-- The hold record of a number (R101). -/
def Part.holdRec (p : Part) (r : Nat) : HoldRecord := Map.get {} p.pool.recs r
/-- A hold record written. -/
def Part.setRec (r : Nat) (v : HoldRecord) (p : Part) : Part :=
  { p with pool := { p.pool with recs := Map.set {} p.pool.recs r v } }

/-- The entry of a carrier (R154). -/
def Part.carrier (p : Part) (c : Nat) : Carrier := Map.get {} p.carriers c
/-- A carrier entry written. -/
def Part.setCarrier (c : Nat) (v : Carrier) (p : Part) : Part :=
  { p with carriers := Map.set {} p.carriers c v }

/-- The Notice Unit's state for a destination (R192). -/
def Part.noticeQueue (p : Part) (d : Nat) : NoticeQueue := Map.get {} p.notices d
/-- The Notice Unit's state for a destination written. -/
def Part.setNoticeQueue (d : Nat) (v : NoticeQueue) (p : Part) : Part :=
  { p with notices := Map.set {} p.notices d v }

/-- The live order of a number (R53). -/
def Part.order? (p : Part) (n : Nat) : Option Order := Map.find? p.book.orders n
/-- A live order's record changed; a number no live record carries changes nothing. -/
def Part.modOrder (n : Nat) (f : Order → Order) (p : Part) : Part :=
  match p.order? n with
  | none => p
  | some o => { p with book := { p.book with orders := Map.put p.book.orders n (f o) } }

/-- The order a bay's build refers to (R56), if it has one. -/
def Part.orderAt (p : Part) (b : Nat) : Option Order := p.order? (p.build b).order

/-- A line of the order a bay's build refers to. -/
def Part.lineAt (p : Part) (b i : Nat) : Option Line := (p.orderAt b).bind (fun o => Map.find? o.lines i)

/-- A line of the order a bay's build refers to, changed. -/
def Part.modLine (b i : Nat) (f : Line → Line) (p : Part) : Part :=
  p.modOrder (p.build b).order (fun o =>
    match Map.find? o.lines i with
    | none => o
    | some l => { o with lines := Map.put o.lines i (f l) })

/-! ### Hall Tables as read (R30) -/

/-- An Article Map entry (R32). -/
def Part.article (p : Part) (a : Nat) : Article := Map.get {} p.tables.articles a
/-- A substitution group's list (R34). -/
def Part.group (p : Part) (g : Nat) : List Nat := Map.get [] p.tables.groups g
/-- The static part of a lane (R36). -/
def Part.laneDir (p : Part) (l : Nat) : LaneDir := Map.get {} p.tables.laneDir l
/-- Whether an arch has a scale fitted (R38). -/
def Part.scale (p : Part) (a : Nat) : Bool := Map.get false p.tables.scales a
/-- The static part of a bay (R39). -/
def Part.bayDir (p : Part) (b : Nat) : BayDir := Map.get {} p.tables.bayDir b
/-- A hall constant by index (R42). -/
def Part.const (p : Part) (i : Nat) : Nat := p.tables.consts.getD i 0
/-- Hall constant 0. -/
def Part.answerTimeout (p : Part) : Nat := p.const 0
/-- Hall constant 1. -/
def Part.persistLimit (p : Part) : Nat := p.const 1
/-- Hall constant 2. -/
def Part.persistRetry (p : Part) : Nat := p.const 2
/-- Hall constant 3. -/
def Part.stepTimeout (p : Part) : Nat := p.const 3
/-- Hall constant 4. -/
def Part.steerConfirm (p : Part) : Nat := p.const 4
/-- Hall constant 5. -/
def Part.chillDwell (p : Part) : Nat := p.const 5
/-- Hall constant 6. -/
def Part.chillRetryLimit (p : Part) : Nat := p.const 6
/-- Hall constant 7. -/
def Part.lapLimit (p : Part) : Nat := p.const 7
/-- Hall constant 8. -/
def Part.floorAllowance (p : Part) : Nat := p.const 8
/-- Hall constant 9. -/
def Part.calendarLength (p : Part) : Nat := p.const 9
/-- A carrier type's tare (R43). -/
def Part.tare (p : Part) (t : Nat) : Nat := p.tables.tares.getD t 0
/-- A calendar entry (R44). -/
def Part.calendarEntry (p : Part) (i : Nat) : Nat := Map.get 0 p.tables.calendar i
/-- A zone's weight (R45). -/
def Part.weight (p : Part) (z : Zone) : Nat := p.tables.weights.getD z.code 0
/-- A style's start index (R46). -/
def Part.styleStart (p : Part) (s : Nat) : Nat := Map.get 0 p.tables.styles s
/-- A style's use count (R179). -/
def Part.useCount (p : Part) (s : Nat) : Nat := Map.get 0 p.useCounts s
/-- A style's use count changed. -/
def Part.modUseCount (s : Nat) (f : Nat → Nat) (p : Part) : Part :=
  { p with useCounts := Map.set 0 p.useCounts s (f (p.useCount s)) }
/-- A step of the Step Store (R47). -/
def Part.step (p : Part) (i : Nat) : Step := Map.get .invalid p.tables.steps i
/-- A Notice Routing entry (R49). -/
def Part.routing (p : Part) (k : NoticeKind) : Routing := Map.get {} p.tables.routing k.code
/-- A Notice Destinations entry (R50). -/
def Part.destination (p : Part) (d : Nat) : Destination := Map.get {} p.tables.dests d
/-- A manager table entry, 0 when empty (R20). -/
def Part.manager (p : Part) (i : Nat) : Nat := Map.get 0 p.tables.managers i

/-- The member at position `pos` (1 to 8) of an article's substitution group, if the position is inside the list
(R35). An invalid article, or one naming group 0, has every position past the end. -/
def Part.groupMember (p : Part) (article pos : Nat) : Option Nat :=
  let e := p.article article
  if e.valid && e.group ≠ 0 && pos ≠ 0 then (p.group e.group)[pos - 1]? else none

/-- The bay whose bay node is a node number (R40); node 0 is no node's number (R1). -/
def Part.bayOfNode (p : Part) (node : Nat) : Option Nat :=
  if node = 0 then none else Config.bays.find? (fun b => (p.bayDir b).bayNode = node)

/-- The in-service bay a Bay Report is attributed to (R40). -/
def Part.reportBay (p : Part) (node : Nat) : Option Nat :=
  match p.bayOfNode node with
  | some b => if (p.build b).state = .outOfService then none else some b
  | none => none

/-! ### Insert queues (R12) -/

/-- A post to the insert queue of the frame's kind: accepted at the tail, or refused (`none`) with nothing changed. -/
def Part.post (x : Post) (p : Part) : Option Part :=
  if x.kind = .steer then
    if p.ring.urgent.length < Config.urgentSize then
      some { p with ring := { p.ring with urgent := p.ring.urgent ++ [x] } }
    else none
  else if p.ring.normal.length < Config.normalSize then
    some { p with ring := { p.ring with normal := p.ring.normal ++ [x] } }
  else none

/-- A post whose refusal changes nothing at the posting block. -/
def Part.postOrDrop (x : Post) (p : Part) : Part := (p.post x).getD p

/-- A Bay Command to a bay's bay node (R39). -/
def Part.bayCommand (p : Part) (b : Nat) (payload : List Byte) : Post :=
  ⟨.bayCommand, (p.bayDir b).bayNode, payload⟩

/-! ### Line counts and committed weight (R77, R79) -/

/-- The five places a unit of a line may stand in (section 4.5). -/
inductive Place where
  | held | enRoute | outstanding | uncalled
  deriving DecidableEq, Repr

/-- Units leave a place. -/
def Line.leave (source : Place) (k : Nat) (l : Line) : Line :=
  match source with
  | .held => { l with held := l.held - k }
  | .enRoute => { l with enRoute := l.enRoute - k }
  | .outstanding => { l with outstanding := l.outstanding - k }
  | .uncalled => { l with uncalled := l.uncalled - k }

/-- Units enter a place. -/
def Line.enter (target : Place) (k : Nat) (l : Line) : Line :=
  match target with
  | .held => { l with held := l.held + k }
  | .enRoute => { l with enRoute := l.enRoute + k }
  | .outstanding => { l with outstanding := l.outstanding + k }
  | .uncalled => { l with uncalled := l.uncalled + k }

/-- A move of `k` units between the counts of a line (R77). -/
def Part.move (b i : Nat) (source target : Place) (k : Nat) (p : Part) : Part :=
  p.modLine b i (fun l => (l.leave source k).enter target k)

/-- Committed weight up and down (R79). -/
def Part.weigh (b up down : Nat) (p : Part) : Part :=
  p.modBuild b (fun x => { x with committed := x.committed + up - down })

/-- The weight a line carrier counts: its verified net, or its article's nominal (R79). -/
def Part.carrierWeight (p : Part) (c : Carrier) : Nat := c.net.getD (p.article c.article).nominal

/-! ### Every timer of the part (R17) -/

/-- A build's timers advanced. -/
def Build.advance (s : Nat) (b : Build) : Build :=
  { b with dwell := b.dwell.advance s, stepTimer := b.stepTimer.advance s, waitTimer := b.waitTimer.advance s }

/-- A call record's timers advanced. -/
def Call.advance (s : Nat) (c : Call) : Call :=
  { c with answer := c.answer.advance s, retry := c.retry.advance s, persist := c.persist.advance s }

/-- A carrier's steer confirm timer advanced. -/
def Carrier.advance (s : Nat) (c : Carrier) : Carrier :=
  match c.state with
  | .steered b i r t => { c with state := .steered b i r (t.advance s) }
  | _ => c

/-- A destination's pacing timer advanced. -/
def NoticeQueue.advance (s : Nat) (n : NoticeQueue) : NoticeQueue := { n with timer := n.timer.advance s }

/-- Every running timer of the part advances by a step. -/
def Part.advanceTimers (s : Nat) (p : Part) : Part :=
  { p with
    builds := Map.mapValues (Build.advance s) p.builds
    calls := { p.calls with recs := Map.mapValues (Call.advance s) p.calls.recs }
    carriers := Map.mapValues (Carrier.advance s) p.carriers
    notices := Map.mapValues (NoticeQueue.advance s) p.notices }

end Sys2Proof.Machine
end

