-- ==== Sys2Proof/Machine/Notices.lean ====
section
/-! DEFINITION. The Notice Unit (chapter 10): queueing, posting and raising notices, and the routing actions.

A notice's LANE_OFFLINE action takes a lane out of use with all the effects of R135, which raise further notices.
Every operation that can raise a notice therefore takes, as its first argument, what that action does to a lane; Calls.lean
closes the knot (`takeLaneOut`), on the bound that R194 gives. -/

namespace Sys2Proof.Machine

/-- What a LANE_OFFLINE routing action does to an ONLINE lane (R194). -/
abbrev LaneAction := Nat → Part → Part

/-- Post attempts by destination `d` whose queue is the list given (R195): one, and a further one after each accepted
post while the pacing interval is 0 and the queue is not empty. -/
def Part.attempts (d : Nat) : List NoticeEntry → Part → Part
  | [], p => p.setNoticeQueue d { p.noticeQueue d with queue := [], timer := .stopped, state := .idle }
  | e :: rest, p =>
    let q := p.noticeQueue d
    if (p.destination d).node = 0 then
      p.setNoticeQueue d { q with queue := e :: rest, timer := .stopped, state := .stalled }
    else
      match p.post ⟨.notice, (p.destination d).node, noticePayload e q.lost⟩ with
      | none => p.setNoticeQueue d { q with queue := e :: rest, timer := .stopped, state := .waiting }
      | some p' =>
        if 0 < (p.destination d).pacing then
          p'.setNoticeQueue d
            { queue := rest, lost := 0, timer := .running (p.destination d).pacing, state := .pacing }
        else
          Part.attempts d rest (p'.setNoticeQueue d { queue := rest, lost := 0, timer := .stopped, state := q.state })

/-- A post attempt by destination `d` (R195). -/
def Part.postAttempt (d : Nat) (p : Part) : Part := p.attempts d (p.noticeQueue d).queue

/-- An entry queued for destination `d` (R192, and the first row of R195's events). -/
def Part.queueNotice (d : Nat) (e : NoticeEntry) (p : Part) : Part :=
  let q := p.noticeQueue d
  if q.queue.length < Config.noticeQueueSize then
    let p := p.setNoticeQueue d { q with queue := q.queue ++ [e] }
    if q.state = .idle then p.postAttempt d else p
  else p.setNoticeQueue d { q with lost := min Config.lostMax (q.lost + 1) }

/-- The lane a notice names (R194): the lane field, but for FINISH_STOP, whose lane field carries a stop cause. -/
def Notice.namedLane (n : Notice) : Nat := if n.kind = .finishStop then 0 else n.lane

/-- The routing action of a notice (R193, R194). -/
def Part.routeAction (off : LaneAction) (n : Notice) (p : Part) : Part :=
  match (p.routing n.kind).action with
  | .none => p
  | .holdBay => if n.bay = 0 then p else p.modBuild n.bay (fun b => { b with holdFlag := true })
  | .laneOffline =>
    if n.namedLane ≠ 0 ∧ (p.lane n.namedLane).online then off n.namedLane p else p

/-- The queueing half of raising a notice (R191 step 1). The routing entry is read once, when the notice is raised. -/
def Part.notify (n : Notice) (p : Part) : Part :=
  let r := p.routing n.kind
  if r.dest = 0 then p else p.queueNotice r.dest ⟨n, r.tags, p.hall.time⟩

/-- A notice is raised (R191): queued for its destination, then its routing action carried out. -/
def Part.raise (off : LaneAction) (n : Notice) (p : Part) : Part := (p.notify n).routeAction off n

/-- A normal entry has left: destination `d` tries again if it is WAITING (R195). -/
def Part.retryNotice (d : Nat) (p : Part) : Part :=
  if (p.noticeQueue d).state = .waiting then p.postAttempt d else p

end Sys2Proof.Machine
end

