-- ==== Sys2Proof/Machine/Returns.lean ====
section
/-! DEFINITION. The Bay Commands of the Build Engine (sections 4.7 and 4.8): RELEASE, RETURN frames, the pending list,
and their retry when a normal entry leaves. -/

namespace Sys2Proof.Machine

/-- The pack count of a build (R83): LINE records on its hold list not marked for return. -/
def Part.packCount (p : Part) (b : Nat) : Nat :=
  ((p.build b).hold.filter (fun r => (p.holdRec r).packed)).length

/-- The build passes to release (R83): a RELEASE with the pack count is posted, or put on the pending list when the
post is refused, and the build is in CLEARING. -/
def Part.release (b : Nat) (p : Part) : Part :=
  let x := p.bayCommand b (releasePayload (p.packCount b))
  match p.post x with
  | some p' => p'.modBuild b (fun y => { y with state := .clearing })
  | none => p.modBuild b (fun y => { y with state := .clearing, pending := y.pending ++ [x] })

/-- Groups of six of a list (R84); the number bounds how many are taken. -/
def sixes {α : Type} : Nat → List α → List (List α)
  | 0, _ => []
  | n + 1, l => if l.isEmpty then [] else l.take 6 :: sixes n (l.drop 6)

/-- A RETURN frame naming a record's carrier has been accepted: the record is POSTED and the carrier RETURNING
(R84, R155). -/
def Part.markPosted (b r : Nat) (p : Part) : Part :=
  let rec_ := p.holdRec r
  let p := p.setRec r { rec_ with mark := .posted }
  let c := p.carrier rec_.carrier
  match c.state with
  | .held b' r' role =>
    if b' = b ∧ r' = r then p.setCarrier rec_.carrier { c with state := .returning b r role } else p
  | _ => p

/-- RETURN frames posted one after another, stopping at the first refused post (R84). -/
def Part.postReturnFrames (b : Nat) : List (List Nat) → Part → Part
  | [], p => p
  | g :: rest, p =>
    match p.post (p.bayCommand b (returnPayload (g.map (fun r => (p.holdRec r).carrier)))) with
    | none => p
    | some p' => Part.postReturnFrames b rest (g.foldl (fun q r => q.markPosted b r) p')

/-- The WANTED records of a build, in hold-list order. -/
def Part.wanted (p : Part) (b : Nat) : List Nat :=
  (p.build b).hold.filter (fun r => (p.holdRec r).mark = .wanted)

/-- RETURN frames formed from the WANTED records of a build and posted (R84). -/
def Part.postReturns (b : Nat) (p : Part) : Part :=
  p.postReturnFrames b (sixes (p.wanted b).length (p.wanted b))

/-- A carrier is RETURNING for a bay (R85). -/
def Part.isReturning (p : Part) (b c : Nat) : Bool :=
  match (p.carrier c).state with
  | .returning b' _ _ => b' = b
  | _ => false

/-- A RETURN frame, by its subcode (Table 1-3). -/
def Post.isReturn (x : Post) : Bool := x.payload.headD 0 = 2

/-- A pending RETURN frame none of whose carriers is still RETURNING for the bay (R85). -/
def Part.spent (p : Part) (b : Nat) (x : Post) : Bool :=
  x.isReturn && !(returnIds x.payload).any (fun c => p.isReturning b c)

/-- The frames of a pending list posted from the head (R84, R85): a spent RETURN is dropped; the first refused frame
stays at the head. -/
def Part.postPending (b : Nat) : List Post → Part → Part
  | [], p => p.modBuild b (fun y => { y with pending := [] })
  | x :: rest, p =>
    if p.spent b x then Part.postPending b rest p
    else
      match p.post x with
      | none => p.modBuild b (fun y => { y with pending := x :: rest })
      | some p' => Part.postPending b rest p'

/-- A normal entry has left: the Build Engine posts the bay's pending list, then new RETURN frames, and stops at the
first refusal (R84). -/
def Part.retryBuild (b : Nat) (p : Part) : Part :=
  let p := if (p.build b).pending = [] then p else p.postPending b (p.build b).pending
  if (p.build b).pending = [] then p.postReturns b else p

/-- An undelivered RETURN or RELEASE posted again unchanged, or put on the pending list when refused (R10, R85). -/
def Part.repost (b : Nat) (x : Post) (p : Part) : Part :=
  match p.post x with
  | some p' => p'
  | none => p.modBuild b (fun y => { y with pending := y.pending ++ [x] })

end Sys2Proof.Machine
end

