-- ==== Sys2Proof/Machine/Finish.lean ====
section
/-! DEFINITION. The Finish Sequencer (chapter 9): the walk of a finish list, stops, and the finish list of a style. -/

namespace Sys2Proof.Machine

/-- The Finish Sequencer fields at their idle values (R178). -/
def Build.finishIdle (b : Build) : Build :=
  { b with pointer := 0, stepTimer := .stopped, waitTimer := .stopped, stopCause := .none, heldStep := none }

/-- The style of the order a build refers to, 0 without one. -/
def Part.styleAt (p : Part) (b : Nat) : Nat := ((p.orderAt b).map (·.style)).getD 0

/-- A style's use count rises by 1; style 0 has none (R179). -/
def Part.useStyle (s : Nat) (p : Part) : Part := if s = 0 then p else p.modUseCount s (· + 1)

/-- A style's use count falls by 1; style 0 has none (R179). -/
def Part.dropStyle (s : Nat) (p : Part) : Part := if s = 0 then p else p.modUseCount s (· - 1)

/-- The build stops with a cause (R186). -/
def Part.stopBuild (off : LaneAction) (b : Nat) (cause : StopCause) (p : Part) : Part :=
  let x := p.build b
  let p := p.modBuild b (fun y =>
    { y with state := .finishStopped, stopCause := cause, stepTimer := .stopped, waitTimer := .stopped,
             heldStep := none })
  let p := p.dropStyle (p.styleAt b)
  p.raise off { kind := .finishStop, bay := b, order := x.order, article := x.pointer, lane := cause.code }

/-- A STEP frame posted (R182): accepted, the step timer starts; refused, the frame is held. -/
def Part.postStep (b : Nat) (x : Post) (p : Part) : Part :=
  match p.post x with
  | some p' => p'.modBuild b (fun y => { y with heldStep := none, stepTimer := .running p.stepTimeout })
  | none => p.modBuild b (fun y => { y with heldStep := some x })

/-- The walk ends at an END step (R189). -/
def Part.endWalk (b : Nat) (p : Part) : Part :=
  let p := p.dropStyle (p.styleAt b)
  let p := p.modBuild b (fun y => { y with stepTimer := .stopped, waitTimer := .stopped, heldStep := none })
  p.release b

/-- The pointer advances; one past the end of the store stays there (R181). -/
def Part.advancePointer (b : Nat) (p : Part) : Part :=
  p.modBuild b (fun y => { y with pointer := min Config.stepCount (y.pointer + 1) })

/-- The step at the finish pointer is executed (R181). A NOTE goes on to the next step, at most as many times as the
number given; the pointer rises at each, so 2049 steps reach the end of the store. -/
def Part.walk (off : LaneAction) : Nat → Nat → Part → Part
  | 0, b, p => p.stopBuild off b .badStep
  | n + 1, b, p =>
    let x := p.build b
    if Config.stepCount ≤ x.pointer then p.stopBuild off b .badStep
    else
      match p.step x.pointer with
      | .invalid => p.stopBuild off b .badStep
      | .finish => p.endWalk b
      | .wait ticks => p.modBuild b (fun y => { y with waitTimer := .running ticks })
      | .action _ code parameter =>
        p.postStep b (p.bayCommand b (stepPayload (stepTag x.pointer x.epoch) code parameter))
      | .note tag =>
        let p := p.raise off { kind := .stepNote, bay := b, order := x.order, article := tag }
        Part.walk off n b (p.advancePointer b)

/-- The step at the finish pointer is executed (R181). -/
def Part.executeStep (off : LaneAction) (b : Nat) (p : Part) : Part := p.walk off (Config.stepCount + 1) b

/-- The pointer advances and the next step is executed (R181). -/
def Part.nextStep (off : LaneAction) (b : Nat) (p : Part) : Part := (p.advancePointer b).executeStep off b

/-- A build enters FINISHING from gathering or SHORT_HOLD (R83, R180). -/
def Part.enterFinishing (off : LaneAction) (b : Nat) (p : Part) : Part :=
  let s := p.styleAt b
  let p := p.modBuild b (fun y =>
    { y with state := .finishing, pointer := p.styleStart s, stopCause := .none })
  (p.useStyle s).executeStep off b

/-- A gathered build goes on to release when its style is 0, to FINISHING otherwise (R80, R82). -/
def Part.gathered (off : LaneAction) (b : Nat) (p : Part) : Part :=
  if p.styleAt b = 0 then p.release b else p.enterFinishing off b

/-- A step index lies in the finish list of a style (R48): from the start index up to and including the first END at or
after it, or to the end of the store. -/
def Part.inFinishList (p : Part) (style index : Nat) : Bool :=
  let start := p.styleStart style
  decide (start ≤ index) && decide (index < Config.stepCount) &&
    (List.range' start (index - start)).all (fun j => p.step j ≠ .finish)

/-- A tag names the step the build waits for (R10, R183): FINISHING, step timer running, epoch and pointer equal. -/
def Part.stepAwaited (p : Part) (b tag : Nat) : Bool :=
  let x := p.build b
  x.state = .finishing && x.stepTimer.live && tagHigh tag = x.epoch && tagPointer tag = x.pointer

/-- A step report matches (R183): its tag names the step awaited, with bit 11 clear. -/
def Part.stepMatches (p : Part) (b tag : Nat) : Bool := p.stepAwaited b tag && stepTagClear tag

/-- The step timer stops. -/
def Part.stopStepTimer (b : Nat) (p : Part) : Part := p.modBuild b (fun y => { y with stepTimer := .stopped })

/-- The on-refuse setting of the step at a build's pointer is CONTINUE (R183). A step that is no ACTION when its
STEP_REFUSED is taken, because the Step Store was written meanwhile, counts as STOP (DESIGN CHOICE, log entry 44). -/
def Part.onRefuseContinue (p : Part) (b : Nat) : Bool :=
  match p.step (p.build b).pointer with
  | .action c _ _ => c
  | _ => false

/-- A normal entry has left: a held STEP is posted again (R182). -/
def Part.retryStep (b : Nat) (p : Part) : Part :=
  match (p.build b).heldStep with
  | none => p
  | some x => p.postStep b x

end Sys2Proof.Machine
end

