-- ==== Sys2Proof/Machine/Lines.lean ====
section
/-! DEFINITION. The Build Engine's line accounting (sections 4.5 and 4.7): shortages and the completion test. -/

namespace Sys2Proof.Machine

/-- No LINE record on a build's hold list is marked for return (R80). -/
def Part.noReturningLine (p : Part) (b : Nat) : Bool :=
  (p.build b).hold.all (fun r => !(p.holdRec r).isLine || (p.holdRec r).mark = .none)

/-- The completion test of a build passes (R80): GATHERING, every line settled, foreign count 0, and no LINE record
marked for return. -/
def Part.complete (p : Part) (b : Nat) : Bool :=
  match p.orderAt b with
  | none => false
  | some o =>
    (p.build b).state = .gathering && o.settled && (p.build b).foreigns = 0 && p.noReturningLine b

/-- The build enters SHORT_HOLD (R81). -/
def Part.enterShortHold (off : LaneAction) (b : Nat) (p : Part) : Part :=
  let p := p.modBuild b (fun y => { y with state := .shortHold })
  p.raise off { kind := .shortHold, bay := b, order := (p.build b).order }

/-- The completion test is made, and what follows when it passes (R80). -/
def Part.completionTest (off : LaneAction) (b : Nat) (p : Part) : Part :=
  match p.orderAt b with
  | none => p
  | some o =>
    if p.complete b then
      let p := p.modBuild b (fun y => { y with dwell := .stopped })
      if o.anyShort && !o.tolerant then p.enterShortHold off b else p.gathered off b
    else p

/-- The cause names a lane in its LINE_SHORT notice (R78). -/
def ShortCause.namesLane : ShortCause → Bool
  | .laneEmpty => true
  | .laneOffline => true
  | .persistTimeout => true
  | _ => false

/-- `k` units of a line move into short with a cause (R77, R78): the move, its LINE_SHORT notice, the completion test.
A build that is not GATHERING takes no line move (R77, R95; log entry 30). -/
def Part.short (off : LaneAction) (b i k : Nat) (source : Place) (cause : ShortCause) (lane : Nat) (p : Part) : Part :=
  match p.lineAt b i with
  | none => p
  | some l =>
    if k = 0 ∨ (p.build b).state ≠ .gathering then p
    else
      let p := p.modLine b i (fun l => { l.leave source k with short := l.short + k, cause := some cause })
      let p := p.raise off
        { kind := .lineShort, bay := b, order := (p.build b).order, article := l.article,
          lane := if cause.namesLane then lane else 0 }
      p.completionTest off b

end Sys2Proof.Machine
end

