-- ==== Sys2Proof/Machine/Calls.lean ====
section
/-! DEFINITION. The Call Unit (chapter 6): creating and freeing calls, the arbiter over FREE records, lanes going EMPTY
and OFFLINE, misses, substitutes moving on, and records returning from SENT. -/

namespace Sys2Proof.Machine

/-! ### Queues and records (R116, R118, R119) -/

/-- A record leaves a lane's queue, and the lane is no longer busy with it. -/
def Part.leaveLane (l i : Nat) (p : Part) : Part :=
  p.modLane l (fun x =>
    { x with queue := x.queue.filter (· ≠ i), busy := if x.busy = some i then none else x.busy })

/-- A record joins the tail of a lane's queue. -/
def Part.joinTail (l i : Nat) (p : Part) : Part := p.modLane l (fun x => { x with queue := x.queue ++ [i] })

/-- A record joins the head of a lane's queue. -/
def Part.joinHead (l i : Nat) (p : Part) : Part := p.modLane l (fun x => { x with queue := i :: x.queue })

/-- A record freed: generation up by 1 modulo 16, last lane kept, every other field absent (R115, R116). -/
def Call.freed (c : Call) : Call := { generation := (c.generation + 1) % 16, lastLane := c.lastLane }

/-- A record is freed from any state. -/
def Part.freeCall (i : Nat) (p : Part) : Part := (p.leaveLane (p.call i).lane i).modCall i Call.freed

/-- The record becomes DEFERRED where it stands, its retry timer started (R139). -/
def Part.defer (i : Nat) (p : Part) : Part :=
  p.modCall i (fun c => { c with state := .deferred, retry := .running p.persistRetry })

/-- The record becomes QUEUED where it stands, its retry timer stopped (R119, R139). -/
def Part.undefer (i : Nat) (p : Part) : Part :=
  p.modCall i (fun c => { c with state := .queued, retry := .stopped })

/-! ### Creating calls (R121 to R124) -/

/-- The lowest-numbered FREE record (R124). -/
def Part.freeRecord (p : Part) : Option Nat := Config.callRecords.find? (fun i => (p.call i).state = .free)

/-- The article at a position of a line (R35, R122): the line's own article at 0, otherwise the group's member; a
position past the end of the list or naming the line's own article has none. -/
def Part.memberArticle (p : Part) (own pos : Nat) : Option Nat :=
  if pos = 0 then some own
  else
    match p.groupMember own pos with
    | some m => if m = own then none else some m
    | none => none

/-- An article passes every test of R122 step 3 for `k` units of a build of bay `b`. -/
def Part.memberPasses (p : Part) (b k committed ceiling art : Nat) : Bool :=
  let a := p.article art
  a.valid && a.homeLane ≠ 0 && (p.lane a.homeLane).online && inZones (p.bayDir b).zones a.zone &&
    !(p.lane a.homeLane).stockOut && fits committed k a.nominal ceiling

/-- The search of R122 over positions `start` to 8: the first whose article passes. -/
def Part.search (p : Part) (b own k committed ceiling start : Nat) : Option (Nat × Nat) :=
  (List.range' start (9 - start)).findSome? (fun pos =>
    match p.memberArticle own pos with
    | none => none
    | some art => if p.memberPasses b k committed ceiling art then some (pos, art) else none)

/-- A record is taken for `j` units at a position whose article and home lane are resolved (R124), or, when no record
is FREE, the units stay uncalled and the call-pool-empty counter rises. A PERSIST call on a lane that is EMPTY is created
DEFERRED, whether the lane is ONLINE or OFFLINE (DEDUCED, log entry 41). -/
def Part.takeCall (b i j : Nat) (mode : LineMode) (pos art : Nat) (p : Part) : Part :=
  match p.freeRecord with
  | none => p.count .callPoolEmpty
  | some r =>
    let a := p.article art
    let deferred := mode = .persist && (p.lane a.homeLane).stockOut
    let seq := p.calls.seq + 1
    let p := p.modCall r (fun c =>
      { state := if deferred then .deferred else .queued, generation := c.generation, bay := b, line := i,
        mode := mode, member := pos, article := art, nominal := a.nominal, lane := a.homeLane, count := j,
        retry := if deferred then .running p.persistRetry else .stopped,
        persist := if mode = .persist then .running p.persistLimit else .stopped,
        seq := seq, lastLane := c.lastLane })
    let p := { p with calls := { p.calls with seq := seq } }
    let p := p.joinTail a.homeLane r
    (p.move b i .uncalled .outstanding j).weigh b (j * a.nominal) 0

/-- A request for a HOME or PERSIST line's whole uncalled count (R121, R123). -/
def Part.requestPlain (off : LaneAction) (b i : Nat) (ceiling : Nat) (l : Line) (p : Part) : Part :=
  let a := p.article l.article
  let k := l.uncalled
  if !a.valid then p.short off b i k .uncalled .invalidArticle 0
  else if a.homeLane = 0 then p.short off b i k .uncalled .noLane 0
  else if l.mode = .home && !(p.lane a.homeLane).online then p.short off b i k .uncalled .laneOffline a.homeLane
  else if l.mode = .home && (p.lane a.homeLane).stockOut then p.short off b i k .uncalled .laneEmpty a.homeLane
  else
    let j := fitting (p.build b).committed k a.nominal ceiling
    let p := p.short off b i (k - j) .uncalled .weight 0
    if j = 0 then p else p.takeCall b i j l.mode 0 l.article

/-- A request for a SUBSTITUTE line's whole uncalled count (R122). -/
def Part.requestSubstitute (off : LaneAction) (b i : Nat) (ceiling : Nat) (l : Line) (p : Part) : Part :=
  match p.search b l.article l.uncalled (p.build b).committed ceiling l.member with
  | some (pos, art) =>
    (p.modLine b i (fun x => { x with member := pos })).takeCall b i l.uncalled .substitute pos art
  | none =>
    (p.modLine b i (fun x => { x with member := 8 })).short off b i l.uncalled .uncalled .noSubstitute 0

/-- The Call Unit is asked for a call for a line's whole uncalled count at its current member (section 6.3). -/
def Part.request (off : LaneAction) (b i : Nat) (p : Part) : Part :=
  match p.orderAt b with
  | none => p
  | some o =>
    match Map.find? o.lines i with
    | none => p
    | some l =>
      if l.uncalled = 0 ∨ (p.build b).state ≠ .gathering then p
      else if l.mode = .substitute then p.requestSubstitute off b i o.ceiling l
      else p.requestPlain off b i o.ceiling l

/-! ### The arbiter over FREE records (R125) -/

/-- The line most in need of a record: of the GATHERING builds with uncalled units the most urgent, the lower bay number
where the key leaves two equal, and the lowest line index of that build. -/
def Part.neediest (p : Part) : Option (Nat × Nat) :=
  let waiting := Config.bays.filterMap (fun b =>
    if (p.build b).state = .gathering then
      (p.orderAt b).bind (fun o => (o.lines.find? (fun kv => decide (0 < kv.2.uncalled))).map (fun kv => (b, kv.1, o)))
    else none)
  (best (fun x y => moreUrgent x.2.2 y.2.2) waiting).map (fun x => (x.1, x.2.1))

/-- A freed record is offered to one line after another until it is taken or no line waits. Each offer leaves one of
the 64 × 16 lines without uncalled units, which bounds the number of offers. -/
def Part.offerUpTo (off : LaneAction) : Nat → Nat → Part → Part
  | 0, _, p => p
  | n + 1, r, p =>
    if (p.call r).state ≠ .free then p
    else
      match p.neediest with
      | none => p
      | some (b, i) => Part.offerUpTo off n r (p.request off b i)

/-- A freed record is offered (R125). -/
def Part.offer (off : LaneAction) (r : Nat) (p : Part) : Part := p.offerUpTo off 1025 r

/-- A record is freed and offered. -/
def Part.freeAndOffer (off : LaneAction) (r : Nat) (p : Part) : Part := (p.freeCall r).offer off r

/-! ### Records that end short, move on, or meet their lane -/

/-- A record's remaining count goes short and the record is freed (R130, R135, R136, R140). The record gives up its
count and its place before the move is reported (log entry 18). -/
def Part.goShort (off : LaneAction) (r : Nat) (cause : ShortCause) (lane : Nat) (p : Part) : Part :=
  let c := p.call r
  let p := (p.leaveLane c.lane r).modCall r (fun x => { x with count := 0 })
  let p := p.weigh c.bay 0 (c.count * c.nominal)
  (p.short off c.bay c.line c.count .outstanding cause lane).freeAndOffer off r

/-- A SUBSTITUTE record moves on (R131). -/
def Part.moveOn (off : LaneAction) (r : Nat) (p : Part) : Part :=
  let c := p.call r
  match p.orderAt c.bay, p.lineAt c.bay c.line with
  | some o, some l =>
    let p := (p.leaveLane c.lane r).weigh c.bay 0 (c.count * c.nominal)
    match p.search c.bay l.article c.count (p.build c.bay).committed o.ceiling (max (c.member + 1) l.member) with
    | some (pos, art) =>
      let a := p.article art
      let p := p.modLine c.bay c.line (fun x => { x with member := pos })
      let p := p.modCall r (fun x =>
        { x with state := .queued, generation := if x.state = .sent then (x.generation + 1) % 16 else x.generation,
                 member := pos, article := art, nominal := a.nominal, lane := a.homeLane, sentCount := 0,
                 answer := .stopped })
      (p.joinTail a.homeLane r).weigh c.bay (c.count * a.nominal) 0
    | none =>
      let p := p.modLine c.bay c.line (fun x => { x with member := 8 })
      let p := p.modCall r (fun x => { x with count := 0 })
      (p.short off c.bay c.line c.count .outstanding .noSubstitute 0).freeAndOffer off r
  | _, _ => p.freeAndOffer off r

/-- The record is QUEUED in a lane's queue. -/
def Part.queuedOn (p : Part) (l r : Nat) : Bool := (p.lane l).queue.contains r && (p.call r).state = .queued

/-- One QUEUED record of a lane that goes EMPTY (R128) or OFFLINE (R135), resolved by its mode. -/
def Part.resolveOne (off : LaneAction) (stockOut : Bool) (l r : Nat) (p : Part) : Part :=
  if p.queuedOn l r then
    match (p.call r).mode with
    | .home => p.goShort off r (if stockOut then .laneEmpty else .laneOffline) l
    | .substitute => p.moveOn off r
    | .persist => if stockOut then p.defer r else p
  else p

/-- Every QUEUED record of a lane resolved in queue order (R128, R135; log entry 21). A record that it frees is offered
before the next of the queue is resolved, so records are freed and offered in queue order and not in ascending record
number (DEDUCED, log entry 42). -/
def Part.resolveQueue (off : LaneAction) (stockOut : Bool) (l : Nat) (p : Part) : Part :=
  (p.lane l).queue.foldl (fun q r => q.resolveOne off stockOut l r) p

/-- An ONLINE lane becomes OFFLINE with the effects of R135. -/
def Part.goOffline (off : LaneAction) (l : Nat) (p : Part) : Part :=
  (p.modLane l (fun x => { x with online := false })).resolveQueue off false l

/-- The LANE_OFFLINE routing action (R194), for chains of at most the given number of further lanes. -/
def takeLaneOutUpTo : Nat → LaneAction
  | 0, l, p => p.modLane l (fun x => { x with online := false })
  | n + 1, l, p => p.goOffline (takeLaneOutUpTo n) l

/-- The LANE_OFFLINE routing action (R194). Each nested action takes one more of the 255 lanes out of use, so the bound
is never reached from a state whose online lanes are lanes 1 to 255 (log entry 20). -/
def takeLaneOut : LaneAction := takeLaneOutUpTo Config.laneCount

/-! ### Stock flags and misses (R128, R134) -/

/-- A lane's EMPTY flag is set (R128); `who` carries the bay, order and article the notice names. -/
def Part.setStockOut (off : LaneAction) (l : Nat) (who : Notice) (p : Part) : Part :=
  if (p.lane l).stockOut then p
  else
    let p := (p.modLane l (fun x => { x with stockOut := true })).resolveQueue off true l
    p.raise off { who with kind := .laneEmpty, lane := l }

/-- A lane's EMPTY flag is cleared, and its DEFERRED records become QUEUED where they stand (R128). -/
def Part.clearStockOut (l : Nat) (p : Part) : Part :=
  if (p.lane l).stockOut then
    (p.lane l).queue.foldl (fun q r => if (q.call r).state = .deferred then q.undefer r else q)
      (p.modLane l (fun x => { x with stockOut := false }))
  else p

/-- An Answer's stock flag applied to a lane (R128). -/
def Part.applyStock (off : LaneAction) (l : Nat) (stockOut : Bool) (who : Notice) (p : Part) : Part :=
  if stockOut then p.setStockOut off l who else p.clearStockOut l

/-- A lane takes a miss (R134): the third in a row takes an ONLINE lane OFFLINE with a LANE_OFFLINE notice, then the
effects of R135. -/
def Part.miss (off : LaneAction) (l : Nat) (who : Notice) (p : Part) : Part :=
  let x := p.lane l
  let m := min 3 (x.misses + 1)
  let p := p.modLane l (fun y => { y with misses := m })
  if m = 3 ∧ x.online then
    let p := p.modLane l (fun y => { y with online := false })
    (p.raise off { who with kind := .laneOffline, lane := l }).resolveQueue off false l
  else p

/-- What a notice about a call names (R128, R134): its bay, its order and its article. -/
def Part.whoOf (p : Part) (c : Call) : Notice :=
  { kind := .laneEmpty, bay := c.bay, order := (p.build c.bay).order, article := c.article }

/-- A record returning from SENT meets its lane (R136). -/
def Part.meetLane (off : LaneAction) (r : Nat) (p : Part) : Part :=
  let c := p.call r
  let x := p.lane c.lane
  if c.expire then p.goShort off r .persistTimeout c.lane
  else if !x.online then
    match c.mode with
    | .home => p.goShort off r .laneOffline c.lane
    | .substitute => p.moveOn off r
    | .persist => p
  else if x.stockOut then
    match c.mode with
    | .home => p.goShort off r .laneEmpty c.lane
    | .substitute => p.moveOn off r
    | .persist => p.defer r
  else p

/-- A record returns from SENT to the head of its lane's queue (R116, R119), its lane no longer busy, and meets its
lane (R136). -/
def Part.returnToQueue (off : LaneAction) (r : Nat) (p : Part) : Part :=
  let c := p.call r
  let p := (p.leaveLane c.lane r).modCall r (fun x =>
    { x with state := .queued, generation := (x.generation + 1) % 16, sentCount := 0, answer := .stopped })
  (p.joinHead c.lane r).meetLane off r

/-- The answer timer of a SENT record ends in a miss (R138), or its Call frame returned undelivered (R9): the record
returns to its queue, then the lane takes a miss naming what the record held. -/
def Part.sentLost (off : LaneAction) (r : Nat) (p : Part) : Part :=
  let c := p.call r
  let who := p.whoOf c
  (p.returnToQueue off r).miss off c.lane who

end Sys2Proof.Machine
end

