-- ==== Sys2Proof/Machine/Calendar.lean ====
section
/-! DEFINITION. The Induction Calendar (chapter 7): candidates, the visit, free selection, and sending a call. -/

namespace Sys2Proof.Machine

/-- A record in lane `l`'s queue is eligible to be sent (R120). -/
def Part.eligible (p : Part) (l r : Nat) : Bool :=
  (p.call r).state = .queued && (p.lane l).online && (p.lane l).busy = none && !(p.build (p.call r).bay).holdFlag &&
    p.mode = .run

/-- A lane's candidate (R120): the first eligible record in its queue order. -/
def Part.laneCandidate (p : Part) (l : Nat) : Option Nat := (p.lane l).queue.find? (fun r => p.eligible l r)

/-- The calls that the lanes of a zone offer (R149), as lane and record, lanes ascending. -/
def Part.zoneOffers (p : Part) (z : Zone) : List (Nat × Nat) :=
  Config.lanes.filterMap (fun l =>
    if (p.laneDir l).zone = z then (p.laneCandidate l).map (fun r => (l, r)) else none)

/-- The first offered call goes before the second (R149): the more urgent build, then the lower call sequence number.
The lane number, the last tie-break, is the order of the offers. -/
def Part.offerBefore (p : Part) (x y : Nat × Nat) : Bool :=
  let older := decide ((p.call x.2).seq.toNat < (p.call y.2).seq.toNat)
  match p.orderAt (p.call x.2).bay, p.orderAt (p.call y.2).bay with
  | some a, some b => moreUrgent a b || (equallyUrgent a b && older)
  | _, _ => older

/-- The zones in cyclic order from a zone (R31). -/
def Zone.roundFrom (z : Zone) : List Zone := [z, z.next, z.next.next, z.next.next.next]

/-- A zone's credit (R147). -/
def Part.credit (p : Part) (z : Zone) : Nat := p.cal.credits.getD z.code 0

/-- The zone that a search from the zone pointer takes (R148 step 1). -/
def Part.zoneFound (p : Part) : Option Zone :=
  p.cal.zone.roundFrom.find? (fun z => decide (0 < p.credit z) && !(p.zoneOffers z).isEmpty)

/-- The credits reloaded to the zone weights (R147). -/
def Part.reloadCredits (p : Part) : Part := { p with cal := { p.cal with credits := p.tables.weights } }

/-- A zone is taken (R148 step 3): one credit is spent, and the zone pointer stays at the zone or, when its credit is
spent, moves past it. -/
def Part.spendCredit (z : Zone) (p : Part) : Part :=
  let left := p.credit z - 1
  { p with cal := { p.cal with
      credits := p.cal.credits.set z.code left, zone := if left = 0 then z.next else z } }

/-- A Call frame is posted for a chosen record (R126), or the opportunity is lost (R150). -/
def Part.sendCall (l r : Nat) (p : Part) : Part :=
  let c := p.call r
  let n := min c.count (p.laneDir l).burst
  match p.post ⟨.call, (p.laneDir l).node, callPayload (callTag r c.generation) c.article n⟩ with
  | none => p.count .opportunitiesLost
  | some p' =>
    let p' := (p'.leaveLane l r).modLane l (fun x => { x with busy := some r })
    p'.modCall r (fun x =>
      { x with state := .sent, sentCount := n, lastLane := l, answer := .running p.answerTimeout })

/-- A call is chosen in a taken zone and sent (R148 step 3, R149). -/
def Part.serveZone (z : Zone) (p : Part) : Part :=
  match best p.offerBefore (p.zoneOffers z) with
  | none => p
  | some (l, r) => (p.spendCredit z).sendCall l r

/-- Free selection (R148). -/
def Part.freeSelection (p : Part) : Part :=
  match p.zoneFound with
  | some z => p.serveZone z
  | none =>
    if Zone.ambient.roundFrom.any (fun z => decide (0 < p.weight z) && !(p.zoneOffers z).isEmpty) then
      let p := p.reloadCredits
      match p.zoneFound with
      | some z => p.serveZone z
      | none => p
    else p

/-- The pointer of the entry that is visited (R145): 0 when the pointer stands at or beyond the length. -/
def Part.visited (p : Part) : Nat := if p.calendarLength ≤ p.cal.pointer then 0 else p.cal.pointer

/-- The pointer after the visit (R145). -/
def Part.pointerAfter (p : Part) : Nat := if p.calendarLength ≤ p.visited + 1 then 0 else p.visited + 1

/-- The lane a visit names, 0 for a free entry and for a calendar of length 0 (R145, R146). -/
def Part.visitedLane (p : Part) : Nat := if p.calendarLength = 0 then 0 else p.calendarEntry p.visited

/-- One call opportunity (R144 to R150): the visit, then the lane's candidate or free selection. -/
def Part.opportunity (p : Part) : Part :=
  let l := p.visitedLane
  let p := { p with cal := { p.cal with pointer := p.pointerAfter } }
  if l = 0 then p.freeSelection
  else
    match p.laneCandidate l with
    | some r => p.sendCall l r
    | none => p.freeSelection

end Sys2Proof.Machine
end

