-- ==== Sys2Proof/Machine/Binding.lean ====
section
/-! DEFINITION. Orders meeting and leaving bays: the binding arbiter (section 3.6), opening a build (R76), orders leaving
BOUND (R68), abort and drain (section 4.11). -/

namespace Sys2Proof.Machine

/-! ### The binding arbiter (R64 to R66) -/

/-- A bay is a binding candidate (R64): its build IDLE, its hold flag clear, the part in RUN. -/
def Part.candidate (p : Part) (b : Nat) : Bool :=
  (p.build b).state = .idle && !(p.build b).holdFlag && p.mode = .run

/-- An order fits a bay (R65). -/
def Part.orderFits (p : Part) (b : Nat) (o : Order) : Bool :=
  let zones := (p.bayDir b).zones
  zones ≠ 0 && o.lines.all (fun kv =>
    let a := p.article kv.2.article
    !a.valid || inZones zones a.zone)

/-- The order a candidate bay receives (R65): the most urgent WAITING order that fits, the lower order number where the
key leaves two equal. -/
def Part.chosenOrder (p : Part) (b : Nat) : Option Nat :=
  (best (fun x y => moreUrgent x.2 y.2)
    (p.book.orders.filter (fun kv => kv.2.state = .waiting && p.orderFits b kv.2))).map (·.1)

/-- Every line of an order reset (R54, R66). -/
def Order.resetLines (o : Order) : Order := { o with lines := Map.mapValues Line.reset o.lines }

/-- The build's own fields at its opening (R76). -/
def Build.opened (n : Nat) (x : Build) : Build :=
  { x.finishIdle with
    state := .gathering, order := n, epoch := (x.epoch + 1) % 16, committed := 0, orphans := 0, chillCount := 0,
    dwell := .stopped, pendingOut := false }

/-- The bay's build is opened for an order (R76): its fields, a call sought for each line in ascending index, then the
completion test. -/
def Part.openBuild (off : LaneAction) (b n : Nat) (p : Part) : Part :=
  let p := p.modBuild b (Build.opened n)
  let indices := ((p.order? n).map (fun o => o.lines.map (·.1))).getD []
  (indices.foldl (fun q i => q.request off b i) p).completionTest off b

/-- An order is bound to a bay (R66). -/
def Part.bind (off : LaneAction) (b n : Nat) (p : Part) : Part :=
  let p := p.modOrder n (fun o => { o.resetLines with state := .bound b })
  (p.openBuild off b n).raise off { kind := .bound, bay := b, order := n }

/-- A candidate bay is served (R65). -/
def Part.serve (off : LaneAction) (b : Nat) (p : Part) : Part :=
  match p.chosenOrder b with
  | none => p
  | some n => p.bind off b n

/-- A binding event (R64): of the bays it names, those that are candidates at the event are served in ascending number.
-/
def Part.bindingEvent (off : LaneAction) (bays : List Nat) (p : Part) : Part :=
  (bays.filter p.candidate).foldl (fun q b => q.serve off b) p

/-! ### Draining (R95, R96) -/

/-- A DRAINING build has ended its drain (R96). -/
def Part.drained (p : Part) (b : Nat) : Bool :=
  let x := p.build b
  x.state = .draining && x.hold = [] && x.reserved = 0 && x.orphans = 0

/-- The end-of-drain test and what follows when it passes (R96). -/
def Part.drainTest (off : LaneAction) (b : Nat) (p : Part) : Part :=
  if p.drained b then
    if (p.build b).pendingOut then
      p.modBuild b (fun x => { x with state := .outOfService, pending := [], pendingOut := false })
    else (p.modBuild b (fun x => { x with state := .idle, pending := [] })).bindingEvent off [b]
  else p

/-! ### Abort (R93, R94, R142) -/

/-- The three ways an abort leaves its order (R68, R93). -/
inductive AbortKind where
  | requeue | cancel | chillFailure
  deriving DecidableEq, Repr

/-- The order's record as an abort leaves it (R68). -/
def Order.aborted (k : AbortKind) (o : Order) : Order :=
  match k with
  | .requeue => { o.resetLines with state := .waiting }
  | .cancel => { o with state := .cancelled }
  | .chillFailure => { o with state := .failed }

/-- The build's own fields as an abort leaves them (R93). -/
def Build.aborted (x : Build) : Build :=
  { x.finishIdle with state := .draining, order := 0, committed := 0, dwell := .stopped, chilledHeld := 0 }

/-- The call records of a bay in one of the given states, in ascending number. -/
def Part.callsOf (p : Part) (b : Nat) (states : List CallState) : List Nat :=
  (p.calls.recs.filter (fun kv => kv.2.bay = b && states.contains kv.2.state)).map (·.1)

/-- A SENT record becomes ORPHAN (R142). -/
def Call.orphaned (c : Call) : Call :=
  { c with state := .orphan, line := 0, mode := .home, member := 0, persist := .stopped, expire := false }

/-- An EN_ROUTE carrier of an aborted build becomes SURPLUS, keeping its article, weight and verification (R94). -/
def Carrier.abandoned (b : Nat) (c : Carrier) : Carrier :=
  match c.state with
  | .enRoute b' _ => if b' = b then { c with state := .surplus } else c
  | _ => c

/-- A hold record not already marked is marked WANTED (R94, R108). -/
def Part.markWanted (r : Nat) (p : Part) : Part :=
  let x := p.holdRec r
  if x.mark = .none then p.setRec r { x with mark := .wanted } else p

/-- The in-flight work of an aborted build is handed to its owners, in the order of R94. -/
def Part.handOver (off : LaneAction) (b : Nat) (p : Part) : Part :=
  let p := (p.callsOf b [.queued, .deferred]).foldl (fun q r =>
    if (q.call r).bay = b ∧ ((q.call r).state = .queued ∨ (q.call r).state = .deferred) then q.freeAndOffer off r
    else q) p
  let sent := p.callsOf b [.sent]
  let p := sent.foldl (fun q r => q.modCall r Call.orphaned) p
  let p := p.modBuild b (fun x => { x with orphans := sent.length })
  let p := { p with carriers := Map.mapValues (Carrier.abandoned b) p.carriers }
  let p := (p.build b).hold.foldl (fun q r => q.markWanted r) p
  (p.postReturns b).drainTest off b

/-- A build is aborted (R93, R94). A requeued order's entry into WAITING is a binding event, taken once the build is
DRAINING and before its work is handed over (log entry 17). -/
def Part.abort (off : LaneAction) (b : Nat) (k : AbortKind) (p : Part) : Part :=
  let x := p.build b
  let style := p.styleAt b
  let p := p.modOrder x.order (Order.aborted k)
  let p := if x.state = .finishing then p.dropStyle style else p
  let p := p.modBuild b Build.aborted
  let p := if k = .requeue then p.bindingEvent off Config.bays else p
  p.handOver off b

/-! ### Chill expiry (R90, R91) -/

/-- A chilled LINE record not yet marked is marked WANTED with the chill-expired indication, its unit goes from held to
uncalled and its weight and count leave the build (R90 steps 1 and 2). -/
def Part.expireRecord (b r : Nat) (p : Part) : Part :=
  let x := p.holdRec r
  match x.role with
  | .line i =>
    if x.chilled && x.mark = .none then
      let p := p.setRec r { x with mark := .wanted, chillExpired := true }
      let p := p.move b i .held .uncalled 1
      p.modBuild b (fun y =>
        { y with committed := y.committed - x.weight, chilledHeld := y.chilledHeld - 1 })
    else p
  | .foreign => p

/-- The lines that a chill expiry's records belong to, from which units went back to uncalled (R90 step 6). -/
def Part.chilledLines (p : Part) (b : Nat) : List Nat :=
  (p.build b).hold.filterMap (fun r =>
    let x := p.holdRec r
    match x.role with
    | .line i => if x.chilled && x.mark = .none then some i else none
    | .foreign => none)

/-- The dwell timer of a GATHERING build expires (R90), and the build may fail by chill (R91). -/
def Part.chillExpires (off : LaneAction) (b : Nat) (p : Part) : Part :=
  let lines := p.chilledLines b
  let n := (p.build b).order
  let p := p.modBuild b (fun x => { x with dwell := .stopped })
  let p := (p.build b).hold.foldl (fun q r => q.expireRecord b r) p
  let p := p.modBuild b (fun x => { x with chillCount := min 15 (x.chillCount + 1) })
  let p := p.raise off { kind := .chillExpiry, bay := b, order := n }
  if p.chillRetryLimit ≤ (p.build b).chillCount then
    (p.abort off b .chillFailure).raise off { kind := .buildFailed, bay := b, order := n }
  else
    let p := p.postReturns b
    let p := ((List.range 16).filter (lines.contains ·)).foldl (fun q i => q.request off b i) p
    p.completionTest off b

end Sys2Proof.Machine
end

