-- ==== Sys2Proof/Machine/Pool.lean ====
section
/-! DEFINITION. The Hold Pool (chapter 5): taking, releasing and unlinking hold records, and exhaustion. -/

namespace Sys2Proof.Machine

/-- A bay's spur has no place left (R103): hold-list count plus reserved count is at its capacity. -/
def Part.spurFull (p : Part) (b : Nat) : Bool :=
  decide ((p.bayDir b).spur ≤ (p.build b).hold.length + (p.build b).reserved)

/-- A record joins the free list at its head with its FREE values, and the arming flag is set (R102, R111). -/
def Part.freeHold (r : Nat) (p : Part) : Part :=
  let p := p.setRec r {}
  { p with pool := { p.pool with free := r :: p.pool.free, armed := true } }

/-- The exhaustion test at an EMPTY refusal (R111). -/
def Part.exhausted (off : LaneAction) (b article : Nat) (p : Part) : Part :=
  if p.pool.armed then
    let p := { p with pool := { p.pool with armed := false } }
    p.raise off { kind := .poolEmpty, bay := b, order := (p.build b).order, article := article }
  else p

/-- The outcome of asking the Hold Pool for a record (R103, R106). -/
inductive Take where
  | granted (record : Nat) (p : Part)
  | spur (p : Part)
  | empty (p : Part)

/-- The head record of the free list is asked for on behalf of a bay (R103, R106): refused with SPUR, refused with
EMPTY after the exhaustion test, or taken off the list. -/
def Part.takeRecord (off : LaneAction) (b article : Nat) (p : Part) : Take :=
  if p.spurFull b then .spur p
  else
    match p.pool.free with
    | [] => .empty (p.exhausted off b article)
    | r :: rest => .granted r { p with pool := { p.pool with free := rest } }

/-- A record joins the tail of a bay's hold list. -/
def Part.append (b r : Nat) (p : Part) : Part := p.modBuild b (fun x => { x with hold := x.hold ++ [r] })

/-- A reservation is released (R104): its record returns to the free list and the bay's reserved count falls by 1. -/
def Part.releaseReservation (b r : Nat) (p : Part) : Part :=
  (p.freeHold r).modBuild b (fun x => { x with reserved := x.reserved - 1 })

/-- A departing record is unlinked from the bay's hold list and returns to the free list (R109). -/
def Part.unlink (b r : Nat) (p : Part) : Part :=
  (p.modBuild b (fun x => { x with hold := x.hold.filter (· ≠ r) })).freeHold r

/-- The whole hold list of a bay is spliced onto the head of the free list, in list order, and every record takes its
FREE values (R110). -/
def Part.splice (b : Nat) (p : Part) : Part :=
  let list := (p.build b).hold
  let p := list.foldl (fun q r => q.setRec r {}) p
  let p := { p with pool := { p.pool with free := list ++ p.pool.free, armed := p.pool.armed || !list.isEmpty } }
  p.modBuild b (fun x => { x with hold := [] })

/-- The record number that follows position `pos` of a list, 0 at its end (R101, Table 5-2). -/
def nextOf (list : List Nat) (pos : Nat) : Nat := list.getD (pos + 1) 0

end Sys2Proof.Machine
end

