-- ==== Sys2Proof/Machine/Carriers.lean ====
section
/-! DEFINITION. The Carrier Tracker (chapter 8): weighing, withdrawal, laps, re-sighting, surplus claims, steering,
arrivals and departures. -/

namespace Sys2Proof.Machine

/-! ### Weighing (R158, R159) -/

/-- The outcome of a weighing. -/
inductive Weighing where
  | unweighed
  | pass (net : Nat)
  | fail
  deriving DecidableEq, Repr

/-- A Sighting is weighed against an article (R158): scale fitted, a reading, a tare, a valid entry. -/
def Part.weighable (p : Part) (g : Sight) (article : Nat) : Bool :=
  p.scale g.arch && g.arch ≠ 0 && g.gross ≠ 65535 && decide (g.ctype ≤ 3) && (p.article article).valid

/-- The weighing of a Sighting against an article (R158, R159). -/
def Part.weighing (p : Part) (g : Sight) (article : Nat) : Weighing :=
  if p.weighable g article then
    let net := g.gross - p.tare g.ctype
    if inBand (p.article article) p.floorAllowance net then .pass net else .fail
  else .unweighed

/-- A weighed reading below the tare counts a light reading (R158). -/
def Part.countLight (g : Sight) (article : Nat) (p : Part) : Part :=
  if p.weighable g article && decide (g.gross < p.tare g.ctype) then p.count .lightReadings else p

/-! ### Withdrawal and laps (R162, R163) -/

/-- A carrier of line `i` of bay `b` is withdrawn from its line and takes the entry `next` (R162): the unit goes back to
uncalled and its weight leaves the build; the counter and notice of the cause; then a call is sought for the line's
uncalled count and the completion test made. -/
def Part.withdraw (off : LaneAction) (c b i : Nat) (next : Carrier) (report : Option (Counter × NoticeKind))
    (p : Part) : Part :=
  let x := p.carrier c
  let w := p.carrierWeight x
  let p := (p.setCarrier c next).move b i .enRoute .uncalled 1
  let p := p.weigh b 0 w
  let p :=
    match report with
    | none => p
    | some (k, n) => (p.count k).raise off { kind := n, bay := b, order := (p.build b).order, article := x.article }
  (p.request off b i).completionTest off b

/-- The entry of a carrier withdrawn with cause LAP_LIMIT or STRAY (R162): SURPLUS, keeping article, verification and
net, laps 0. -/
def Carrier.toSurplus (x : Carrier) : Carrier := { x with state := .surplus, laps := 0 }

/-- The lap of an EN_ROUTE carrier is counted at the lap arch, or the carrier withdrawn past its limit (R163). -/
def Part.countLap (off : LaneAction) (c b i arch : Nat) (p : Part) : Part :=
  if arch ≠ 0 ∧ p.tables.lapArch = arch then
    let x := p.carrier c
    if p.lapLimit ≤ x.laps then p.withdraw off c b i x.toSurplus (some (.lapLimits, .lapLimit))
    else p.setCarrier c { x with laps := x.laps + 1 }
  else p

/-! ### Steering (R169, R170) -/

/-- A granted reservation: the record is RESERVED, the Steer posted, and the carrier STEERED; or, when the urgent queue
refuses the Steer, the reservation is released and counted (R103, R170). -/
def Part.steerGranted (c b i r : Nat) (p : Part) : Part :=
  let x := p.carrier c
  let p := (p.setRec r { carrier := c }).modBuild b (fun y => { y with reserved := y.reserved + 1 })
  match p.post ⟨.steer, (p.bayDir b).diverter, steerPayload c b⟩ with
  | some p' => p'.setCarrier c { x with state := .steered b i r (.running p.steerConfirm) }
  | none => (p.releaseReservation b r).count .withheldQueue

/-- A steering attempt for a carrier EN_ROUTE to bay `b` for line `i` (R169). -/
def Part.steerAttempt (off : LaneAction) (c b i : Nat) (p : Part) : Part :=
  if (p.build b).holdFlag || (p.build b).blocked then p
  else
    match p.takeRecord off b (p.carrier c).article with
    | .spur p => p.count .withheldSpur
    | .empty p => p.count .withheldPool
    | .granted r p => p.steerGranted c b i r

/-- The arch is the steering arch of the bay (R156, R161). -/
def Part.atSteeringArch (p : Part) (b arch : Nat) : Bool := arch ≠ 0 && (p.bayDir b).arch = arch

/-! ### Line carriers at the arches (R161, R164) -/

/-- The handling of a Sighting that read the article of an EN_ROUTE carrier (R161 step 4). -/
def Part.sightMatch (off : LaneAction) (c b i : Nat) (g : Sight) (p : Part) : Part :=
  let x := p.carrier c
  let outcome := p.weighing g x.article
  let p := p.countLight g x.article
  match outcome with
  | .fail => p.withdraw off c b i { state := .reject, article := x.article } (some (.weightFails, .weightFail))
  | outcome =>
    let p :=
      match outcome with
      | .pass net => (p.weigh b net (p.carrierWeight x)).setCarrier c { x with net := some net }
      | _ => p
    let p := p.countLap off c b i g.arch
    if (p.carrier c).state = .enRoute b i && p.atSteeringArch b g.arch then p.steerAttempt off c b i else p

/-- A Sighting of an EN_ROUTE carrier (R161). -/
def Part.sightLine (off : LaneAction) (c b i : Nat) (g : Sight) (p : Part) : Part :=
  match g.articleRead with
  | .empty => p.withdraw off c b i {} (some (.mismatches, .mismatch))
  | .noRead => p.countLap off c b i g.arch
  | .article a =>
    if a = (p.carrier c).article then p.sightMatch off c b i g
    else p.withdraw off c b i { state := .surplus, article := a } (some (.mismatches, .mismatch))

/-- A STEERED carrier that did not arrive (R9, R164, R171): its reservation is released; it goes back to EN_ROUTE for a
GATHERING build, and otherwise becomes SURPLUS and the drain test is made (log entry 28). -/
def Part.steerEnds (off : LaneAction) (c b i r : Nat) (p : Part) : Part :=
  let x := p.carrier c
  let p := p.releaseReservation b r
  if (p.build b).state = .gathering then p.setCarrier c { x with state := .enRoute b i }
  else (p.setCarrier c { x with state := .surplus }).drainTest off b

/-! ### Surplus claims (R167, R168) -/

/-- Where a claim takes its unit from (R167). -/
inductive Source where
  | uncalled
  | call (record : Nat)
  deriving DecidableEq, Repr

/-- The QUEUED record of a line with an article that has the highest call sequence number (R167). -/
def Part.claimRecord (p : Part) (b i article : Nat) : Option Nat :=
  (best (fun x y => decide (y.2.seq.toNat < x.2.seq.toNat))
    (p.calls.recs.filter (fun kv =>
      kv.2.state = .queued && kv.2.bay = b && kv.2.line = i && kv.2.article = article && decide (0 < kv.2.count)))).map
    (·.1)

/-- The current article of a line (R167). -/
def Part.currentArticle (p : Part) (l : Line) : Option Nat :=
  if l.mode = .substitute then p.memberArticle l.article l.member else some l.article

/-- The source a line offers for a surplus carrier of article `a` and weight `w`, if its weight test passes (R167). -/
def Part.claimSource (p : Part) (b i a w : Nat) (o : Order) (l : Line) : Option Source :=
  let W := (p.build b).committed
  if 0 < l.uncalled ∧ p.currentArticle l = some a ∧ W + w ≤ o.ceiling then some .uncalled
  else
    match p.claimRecord b i a with
    | some r => if W + w ≤ o.ceiling + (p.call r).nominal then some (.call r) else none
    | none => none

/-- The line of a bay's build that may take a surplus carrier: the lowest index that offers a source (R167, R168). -/
def Part.claimLine (p : Part) (b a w : Nat) : Option (Nat × Nat × Source × Order) :=
  if (p.build b).state = .gathering && !(p.build b).holdFlag && inZones (p.bayDir b).zones (p.article a).zone then
    (p.orderAt b).bind (fun o =>
      o.lines.findSome? (fun kv => (p.claimSource b kv.1 a w o kv.2).map (fun s => (b, kv.1, s, o))))
  else none

/-- The line that claims a surplus carrier (R168): of the most urgent build, the lower bay where the key leaves two
equal. -/
def Part.claimant (p : Part) (a w : Nat) : Option (Nat × Nat × Source × Order) :=
  if (p.article a).valid then
    best (fun x y => moreUrgent x.2.2.2 y.2.2.2) (Config.bays.filterMap (fun b => p.claimLine b a w))
  else none

/-- A unit of a QUEUED call gives way to a claimed carrier (R141). -/
def Part.lowerCall (off : LaneAction) (r : Nat) (p : Part) : Part :=
  let p := p.modCall r (fun c => { c with count := c.count - 1 })
  if (p.call r).count = 0 then p.freeAndOffer off r else p

/-- A SURPLUS carrier is offered for a claim (R167, R168). -/
def Part.claim (off : LaneAction) (c : Nat) (g : Sight) (p : Part) : Part :=
  let x := p.carrier c
  let a := x.article
  let w := p.carrierWeight x
  match p.claimant a w with
  | none => p
  | some (b, i, source, _) =>
    let p := p.setCarrier c { x with state := .enRoute b i, laps := 0 }
    let p :=
      match source with
      | .uncalled => (p.move b i .uncalled .enRoute 1).weigh b w 0
      | .call r =>
        let n := (p.call r).nominal
        ((p.lowerCall off r).move b i .outstanding .enRoute 1).weigh b w n
    if p.atSteeringArch b g.arch && g.articleRead = .article a then p.steerAttempt off c b i else p

/-! ### Carriers that belong to no line (R165, R166) -/

/-- A SURPLUS carrier with an article is weighed and, unless it becomes REJECT, offered for a claim (R165). -/
def Part.sightSurplus (off : LaneAction) (c : Nat) (g : Sight) (p : Part) : Part :=
  let x := p.carrier c
  if x.article = 0 then p
  else
    let outcome := p.weighing g x.article
    let p := p.countLight g x.article
    match outcome with
    | .fail => (p.setCarrier c { x with state := .reject, net := none }).count .weightFails
    | .pass net => (p.setCarrier c { x with net := some net }).claim off c g
    | .unweighed => p.claim off c g

/-- A Sighting of a FREE or SURPLUS carrier (R165). -/
def Part.sightLoose (off : LaneAction) (c : Nat) (g : Sight) (p : Part) : Part :=
  let x := p.carrier c
  match g.articleRead with
  | .empty => p.setCarrier c {}
  | .article a =>
    let p := p.setCarrier c
      { x with state := .surplus, article := a, net := if a = x.article then x.net else none }
    p.sightSurplus off c g
  | .noRead => if x.state = .surplus then p.sightSurplus off c g else p

/-- A Sighting of a valid carrier id, by the state of its entry (R157). -/
def Part.sight (off : LaneAction) (g : Sight) (p : Part) : Part :=
  let c := g.carrier
  if !carrierId c then p.count .ignoredSightings
  else
    match (p.carrier c).state with
    | .enRoute b i => p.sightLine off c b i g
    | .steered b i r _ =>
      let p := p.steerEnds off c b i r
      match (p.carrier c).state with
      | .enRoute b' i' => p.sightLine off c b' i' g
      | _ => p.sightLoose off c g
    | .free => p.sightLoose off c g
    | .surplus => p.sightLoose off c g
    | .reject => if g.articleRead = .empty then p.setCarrier c {} else p
    | .held _ _ _ => p.count .ignoredSightings
    | .returning _ _ _ => p.count .ignoredSightings

/-! ### Arrivals (R172 to R174, R105, R106, R87, R88) -/

/-- A LINE record as an arrival fills it (R105). -/
def Part.lineRecord (p : Part) (c i : Nat) : HoldRecord :=
  let x := p.carrier c
  { carrier := c, role := .line i, article := x.article, weight := p.carrierWeight x, verified := x.net.isSome,
    chilled := (p.article x.article).zone = .chilled, arrival := p.hall.time }

/-- A LINE record has been appended: in GATHERING the chilled held count and the dwell timer follow a chilled record
(R89), the unit moves from en-route to held and the completion test is made (R172); in DRAINING the record is marked
WANTED and returned (R95). -/
def Part.lineArrived (off : LaneAction) (b i r : Nat) (p : Part) : Part :=
  if (p.build b).state = .gathering then
    let p :=
      if (p.holdRec r).chilled then
        p.modBuild b (fun x =>
          { x with chilledHeld := x.chilledHeld + 1,
                   dwell := if x.dwell.live then x.dwell else .running p.chillDwell })
      else p
    (p.move b i .enRoute .held 1).completionTest off b
  else if (p.build b).state = .draining then (p.markWanted r).postReturns b
  else p

/-- A line carrier comes to rest in its bay on record `r` (R105, R106, R172): the record is filled and appended, the
carrier becomes HELD. -/
def Part.listLine (off : LaneAction) (c b i r : Nat) (p : Part) : Part :=
  let x := p.carrier c
  let p := (p.setRec r (p.lineRecord c i)).append b r
  let p := p.setCarrier c { x with state := .held b r (.line i) }
  p.lineArrived off b i r

/-- The prior state of a carrier that arrives foreign (R174). -/
def Carrier.prior (x : Carrier) : Prior :=
  match x.state with
  | .surplus => .surplus
  | .reject => .reject
  | _ => .free

/-- A FOREIGN record is taken, listed and returned (R87, R174). -/
def Part.foreignRecorded (c b r : Nat) (p : Part) : Part :=
  let x := p.carrier c
  let p := (p.setRec r
    { carrier := c, role := .foreign, article := x.article, mark := .wanted, arrival := p.hall.time }).append b r
  let p := p.modBuild b (fun y => { y with foreigns := y.foreigns + 1 })
  let p := p.count .foreignArrivals
  let p := p.setCarrier c { x with state := .held b r (.foreign x.prior), laps := 0 }
  p.postReturns b

/-- A foreign arrival finds no record (R88). -/
def Part.foreignUnrecorded (off : LaneAction) (c b : Nat) (p : Part) : Part :=
  let p := (p.count .foreignArrivals).count .foreignUnrecorded
  let p := p.raise off
    { kind := .foreign, bay := b, order := (p.build b).order, article := (p.carrier c).article }
  p.postOrDrop (p.bayCommand b (returnPayload [c]))

/-- A foreign arrival of a carrier that belongs to no build (R87, R88, R106). -/
def Part.foreignArrival (off : LaneAction) (c b : Nat) (p : Part) : Part :=
  match p.takeRecord off b (p.carrier c).article with
  | .granted r p => p.foreignRecorded c b r
  | .spur p => p.foreignUnrecorded off c b
  | .empty p => p.foreignUnrecorded off c b

/-- A carrier EN_ROUTE to the reporting bay arrives (R173). -/
def Part.lateArrival (off : LaneAction) (c b i : Nat) (p : Part) : Part :=
  match p.takeRecord off b (p.carrier c).article with
  | .granted r p => p.listLine off c b i r
  | .spur p => (p.withdraw off c b i (p.carrier c).toSurplus none).foreignArrival off c b
  | .empty p => (p.withdraw off c b i (p.carrier c).toSurplus none).foreignArrival off c b

/-- A carrier STEERED to another bay arrives here (R174): its reservation is released and it leaves that build. -/
def Part.strayFrom (off : LaneAction) (c b i r : Nat) (p : Part) : Part :=
  let x := p.carrier c
  let p := p.releaseReservation b r
  if (p.build b).state = .gathering then p.withdraw off c b i x.toSurplus none
  else (p.setCarrier c { x with state := .surplus }).drainTest off b

/-- An ARRIVED report at bay `b` (R172). -/
def Part.arrive (off : LaneAction) (b c : Nat) (p : Part) : Part :=
  if !carrierId c then p.count .unmatched
  else
    match (p.carrier c).state with
    | .steered b' i r _ =>
      if b' = b then
        (p.modBuild b (fun x => { x with reserved := x.reserved - 1 })).listLine off c b i r
      else (p.strayFrom off c b' i r).foreignArrival off c b
    | .enRoute b' i =>
      if b' = b then p.lateArrival off c b i
      else (p.withdraw off c b' i (p.carrier c).toSurplus none).foreignArrival off c b
    | .held _ _ _ => p.count .unmatched
    | .returning _ _ _ => p.count .unmatched
    | _ => p.foreignArrival off c b

/-! ### Departures (R175, R86) -/

/-- The entry of a carrier that departs, decided from its record (R175). -/
def Carrier.departed (x : Carrier) (role : CarrierRole) (rec_ : HoldRecord) : Carrier :=
  match role with
  | .line _ =>
    if rec_.chillExpired then { state := .reject, article := rec_.article }
    else { state := .surplus, article := x.article, net := x.net }
  | .foreign .reject => { state := .reject, article := x.article, net := x.net }
  | .foreign .surplus => { state := .surplus, article := x.article, net := x.net }
  | .foreign .free => {}

/-- A DEPARTED report at bay `b` (R175, R109, R86). -/
def Part.depart (off : LaneAction) (b c : Nat) (p : Part) : Part :=
  match carrierId c, (p.carrier c).state with
  | true, .returning b' r role =>
    if b' = b then
      let p := (p.setCarrier c ((p.carrier c).departed role (p.holdRec r))).unlink b r
      let p :=
        match role with
        | .foreign _ => p.modBuild b (fun x => { x with foreigns := x.foreigns - 1 })
        | .line _ => p
      (p.completionTest off b).drainTest off b
    else p.count .unmatched
  | _, _ => p.count .unmatched

/-! ### Clearing (R97) -/

/-- A CLEARED report of a bay in CLEARING (R97). -/
def Part.clearBay (off : LaneAction) (b packed : Nat) (p : Part) : Part :=
  let x := p.build b
  let p := if p.packCount b = packed then p else p.count .packedDifferences
  let p := x.hold.foldl (fun q r => q.setCarrier (q.holdRec r).carrier {}) p
  let p := (p.splice b).modBuild b (fun y => { y with foreigns := 0, chilledHeld := 0, pending := [] })
  let p := p.modOrder x.order (fun o => { o with state := if o.anyShort then .doneShort else .done })
  let p := p.raise off { kind := .done, bay := b, order := x.order }
  let p := p.modBuild b (fun y => { y.finishIdle with state := .idle, order := 0, committed := 0 })
  p.bindingEvent off [b]

end Sys2Proof.Machine
end

