-- ==== Sys2Proof/Machine/Ring.lean ====
section
/-! DEFINITION. The Ring Port (section 1.2): what becomes of a frame that reaches the part, the slot arbiter, the report
that a normal entry has left, and the part's own frames handed back. -/

namespace Sys2Proof.Machine

/-- The part is a pure forwarder (R3). -/
def Part.forwarder (p : Part) : Bool := p.ring.straps = 0 || p.ring.straps = 1023

/-- RESETN is low, or the part is a pure forwarder: no block is reached (R3, R23). -/
def Part.inert (p : Part) : Bool := p.ring.resetHeld || p.forwarder

/-- The part's node number as the frame fields hold it (R3). -/
def Part.node (p : Part) : Half := p.ring.straps.setWidth 16

/-- The slot in the port (log entry 3). -/
def Part.putSlot (f : Frame) (p : Part) : Part := { p with ring := { p.ring with slot := f } }

/-- What the Ring Port does with a sound frame of a kind the part exchanges (R4, R6 to R8, R18). -/
inductive Verdict where
  /-- Forwarded unchanged, not counted, handed to no block. -/
  | pass
  /-- One of the part's own frames: stripped; `undelivered` when unicast with its Taken mark clear. -/
  | strip (kind : SentKind) (undelivered : Bool)
  /-- A broadcast copied to its reader and forwarded. -/
  | read
  /-- Taken and handed to its block. -/
  | take
  /-- Taken and discarded in CONFIG. -/
  | discard
  /-- Left untaken and counted. -/
  | untaken
  /-- An Admin Request left untaken because the normal queue is full. -/
  | deferred
  deriving DecidableEq, Repr

/-- A frame addressed to the part's node with its Taken mark clear (R7). -/
def Part.addressed (p : Part) (pkt : Packet) : Bool := pkt.dst = p.node && !pkt.taken

/-- A Pitch, Tick or Sighting (R6), handed on in the modes given. -/
def Part.broadcastVerdict (p : Part) (modes : List Mode) (pkt : Packet) : Verdict :=
  if pkt.dst = Config.broadcast then (if modes.contains p.mode then .read else .pass)
  else if p.addressed pkt then .untaken else .pass

/-- An Answer or Bay Report and the result of its checks (R7). -/
def Part.unicastVerdict (p : Part) (sane : Bool) (pkt : Packet) : Verdict :=
  if p.addressed pkt then (if sane then (if p.mode = .config then .discard else .take) else .untaken) else .pass

/-- The normal queue has a free entry (R12, R18). -/
def Part.normalFree (p : Part) : Bool := decide (p.ring.normal.length < Config.normalSize)

/-- The verdict by the frame's kind, once it is known not to be one of the part's own frames (R6, R7, R18). -/
def Part.kindVerdict (p : Part) (kind : Kind) (pkt : Packet) : Verdict :=
  match kind with
  | .tick => p.broadcastVerdict [.config, .run, .paused] pkt
  | .pitch => p.broadcastVerdict [.run] pkt
  | .sighting => p.broadcastVerdict [.run, .paused] pkt
  | .answer => p.unicastVerdict (answerChecks pkt) pkt
  | .bayReport => p.unicastVerdict (reportChecks pkt) pkt
  | .adminRequest => if p.addressed pkt then (if p.normalFree then .take else .deferred) else .pass
  | _ => if p.addressed pkt then .untaken else .pass

/-- The verdict on a sound frame. The test for the part's own frames is made first (R8). -/
def Part.verdict (p : Part) (kind : Kind) (pkt : Packet) : Verdict :=
  if p.inert then .pass
  else if pkt.src = p.node then
    match kind.sent? with
    | some k => .strip k (decide (pkt.dst ≠ Config.broadcast) && !pkt.taken)
    | none => p.kindVerdict kind pkt
  else p.kindVerdict kind pkt

/-- A sound frame passes the Ring Port; `act` is what the block it reaches does with it. -/
def Part.deliver (kind : Kind) (pkt : Packet) (act : Part → Part) (p : Part) : Part :=
  let f := pkt.seal kind.code
  match p.verdict kind pkt with
  | .pass => p.putSlot f
  | .strip k undelivered =>
    if undelivered then act ((p.putSlot emptyFrame).count (.undelivered k)) else p.putSlot emptyFrame
  | .read => act (p.putSlot f)
  | .take => act (p.putSlot f.take)
  | .discard => (p.putSlot f.take).count .unmatched
  | .untaken => (p.putSlot f).count .untaken
  | .deferred => (p.putSlot f).count .deferred

/-! ### The slot arbiter and its report (R13, R14) -/

/-- A queued frame as it is written into a slot (R2, R12): source the part's node, mark 0, check word computed. -/
def Part.launch (p : Part) (x : Post) : Frame :=
  Packet.seal x.kind.kind.code ⟨0, BitVec.ofNat 16 x.dst, p.node, x.payload⟩

/-- The slot arbiter at the slot in the port (R13): an Empty slot takes the head of the urgent queue, or else of the
normal queue. -/
def Part.fillSlot (p : Part) : Part :=
  if p.inert || p.ring.slot.kind ≠ 0 then p
  else
    match p.ring.urgent, p.ring.normal with
    | x :: rest, _ => { p with ring := { p.ring with slot := p.launch x, urgent := rest } }
    | [], x :: rest => { p with ring := { p.ring with slot := p.launch x, normal := rest, left := p.ring.left + 1 } }
    | [], [] => p

/-- A normal entry has left (R14): the bays in ascending number, for each the Build Engine's frames and then the held
STEP, and after all bays the notice destinations in ascending number. -/
def Part.reportLeft (p : Part) : Part :=
  let p := Config.bays.foldl (fun q b => (q.retryBuild b).retryStep b) p
  Config.destinations.foldl (fun q d => q.retryNotice d) p

/-- The report of one normal entry that has left is taken (log entry 5). -/
def Part.entryLeft (p : Part) : Part :=
  if p.ring.resetHeld || p.ring.left = 0 then p
  else Part.reportLeft { p with ring := { p.ring with left := p.ring.left - 1 } }

/-! ### Undelivered frames (R9 to R11) -/

/-- An undelivered Call handed back to the Call Unit (R9). -/
def Part.callReturned (off : LaneAction) (pkt : Packet) (p : Part) : Part :=
  let r := tagIndex (pkt.u16 6)
  if (p.call r).state = .sent ∧ (p.call r).generation = tagHigh (pkt.u16 6) then p.sentLost off r else p

/-- An undelivered Steer handed back to the Carrier Tracker (R9). -/
def Part.steerReturned (off : LaneAction) (pkt : Packet) (p : Part) : Part :=
  match (p.carrier (pkt.u16 6)).state with
  | .steered b i r _ => if b = pkt.u8 8 then p.steerEnds off (pkt.u16 6) b i r else p
  | _ => p

/-- The returned frame as it was posted (R10). -/
def commandReturned (pkt : Packet) : Post := ⟨.bayCommand, pkt.dst.toNat, pkt.payload⟩

/-- An undelivered Bay Command handed back to the bay whose bay node it was addressed to (R10, R40), by its
subcode. -/
def Part.bayCommandReturned (off : LaneAction) (pkt : Packet) (p : Part) : Part :=
  match p.bayOfNode pkt.dst.toNat with
  | none => p
  | some b =>
    match pkt.u8 6 with
    | 1 => if p.stepAwaited b (pkt.u16 7) then (p.stopStepTimer b).stopBuild off b .fault else p
    | 2 => if (returnIds pkt.payload).any (fun c => p.isReturning b c) then p.repost b (commandReturned pkt) else p
    | 3 => if (p.build b).state = .clearing then p.repost b (commandReturned pkt) else p
    | _ => p

/-- What the block that posts a kind does with its undelivered frame (R9 to R11). -/
def Part.handBack (off : LaneAction) (kind : SentKind) (pkt : Packet) (p : Part) : Part :=
  match kind with
  | .call => p.callReturned off pkt
  | .steer => p.steerReturned off pkt
  | .bayCommand => p.bayCommandReturned off pkt
  | .notice => p
  | .adminReply => p

/-- A frame of a kind the part sends reaches the part. -/
def Part.ownKind (kind : SentKind) (pkt : Packet) (p : Part) : Part :=
  p.deliver kind.kind pkt (fun q => q.handBack takeLaneOut kind pkt)

end Sys2Proof.Machine
end

