-- ==== Sys2Proof/Machine/BayReports.lean ====
section
/-! DEFINITION. Bay Reports as their blocks handle them (R7): attribution to a bay (R40), step reports (R183), BLOCKED and
UNBLOCKED (R75), CLEARED (R97, R99). -/

namespace Sys2Proof.Machine

/-- A Bay Report is attributed to the in-service bay of its source, or counted as unmatched (R40). -/
def Part.onBay (pkt : Packet) (act : Nat → Part → Part) (p : Part) : Part :=
  match p.reportBay pkt.src.toNat with
  | some b => act b p
  | none => p.count .unmatched

/-- A step report at a bay (R183): stale reports are counted; a matching one stops the step timer and is acted on. -/
def Part.stepReport (b : Nat) (pkt : Packet) (act : Part → Part) (p : Part) : Part :=
  if p.stepMatches b (pkt.u16 7) then act (p.stopStepTimer b) else p.count .unmatched

/-- STEP_REFUSED that matches (R183). -/
def Part.stepRefusedAt (off : LaneAction) (b : Nat) (p : Part) : Part :=
  if p.onRefuseContinue b then p.nextStep off b else p.stopBuild off b .refused

/-- The blocked flag of a bay set or cleared (R75). -/
def Part.setBlocked (b : Nat) (f : Bool) (p : Part) : Part := p.modBuild b (fun x => { x with blocked := f })

/-- A CLEARED report at a bay (R97, R99). -/
def Part.clearedAt (off : LaneAction) (b packed : Nat) (p : Part) : Part :=
  if (p.build b).state = .clearing then p.clearBay off b packed else p.count .unmatched

end Sys2Proof.Machine
end

