-- ==== Sys2Proof/Machine/TableOps.lean ====
section
/-! DEFINITION. The Hall Tables as TABLE_WRITE stores and TABLE_READ returns them (chapter 2): index ranges, writability,
the checks and clamps of each entry, and the entry layouts of section 2.11. -/

namespace Sys2Proof.Machine

/-- The fourteen tables (Table 2-1). -/
inductive TableId where
  | articleMap | groups | laneDirectory | archMap | bayTable | hallConstants | tares | calendar | zoneWeights | styles
  | stepStore | routing | destinations | managers
  deriving DecidableEq, Repr

/-- The table an identifier names (Table 2-1). -/
def TableId.ofCode : Nat → Option TableId
  | 1 => some .articleMap
  | 2 => some .groups
  | 3 => some .laneDirectory
  | 4 => some .archMap
  | 5 => some .bayTable
  | 6 => some .hallConstants
  | 7 => some .tares
  | 8 => some .calendar
  | 9 => some .zoneWeights
  | 10 => some .styles
  | 11 => some .stepStore
  | 12 => some .routing
  | 13 => some .destinations
  | 14 => some .managers
  | _ => none

/-- The index range of a table for reading (Table 2-1, R28): index 0 of the Article Map can be read. -/
def TableId.range : TableId → Nat × Nat
  | .articleMap => (0, 8191)
  | .groups => (1, 127)
  | .laneDirectory => (1, 255)
  | .archMap => (1, 255)
  | .bayTable => (1, 64)
  | .hallConstants => (0, 9)
  | .tares => (0, 3)
  | .calendar => (0, 31)
  | .zoneWeights => (0, 0)
  | .styles => (1, 63)
  | .stepStore => (0, 511)
  | .routing => (1, 16)
  | .destinations => (1, 4)
  | .managers => (1, 2)

/-- An index lies in the range of a table. -/
def TableId.inRange (t : TableId) (i : Nat) : Bool := decide (t.range.1 ≤ i) && decide (i ≤ t.range.2)

/-- A step lies in the finish list of a style in use (R48). -/
def Part.stepInUse (p : Part) (index : Nat) : Bool :=
  Config.styles.any (fun s => decide (0 < p.useCount s) && p.inFinishList s index)

/-- Why an entry may not be written in the present state (R29). -/
def Part.writeBar (p : Part) (t : TableId) (i : Nat) : Option Status :=
  let config := if p.mode = .config then none else some .badState
  match t with
  | .articleMap => config
  | .groups => config
  | .archMap => config
  | .tares => config
  | .laneDirectory => if (p.lane i).online then some .inUse else none
  | .bayTable => if (p.build i).state = .outOfService then none else some .inUse
  | .styles => if p.useCount i = 0 then none else some .inUse
  | .stepStore => if (List.range' (4 * i) 4).any p.stepInUse then some .inUse else none
  | .hallConstants => none
  | .calendar => none
  | .zoneWeights => none
  | .routing => none
  | .destinations => none
  | .managers => none

/-! ### Entries as a write gives them: `none` when a field is meaningless. Entry byte `j` is frame byte `11 + j`. -/

/-- A field written as 0 or 1. -/
def flagOf : Nat → Option Bool
  | 0 => some false
  | 1 => some true
  | _ => none

/-- An Article Map entry (R32). -/
def articleEntry (p : Packet) : Option Article :=
  match flagOf (p.u8 11), Zone.ofCode (p.u8 12) with
  | some false, _ => some {}
  | some true, some z =>
    if p.u16 13 = 0 ∨ 127 < p.u8 17 then none
    else some
      { valid := true, zone := z, nominal := min 30000 (p.u16 13), tolerance := min 15 (p.u8 15), homeLane := p.u8 16,
        group := p.u8 17 }
  | _, _ => none

/-- A substitution group (R34). -/
def groupEntry (p : Packet) : Option (List Nat) :=
  let members := (p.ids 11 8).takeWhile (· ≠ 0)
  if members.all (fun m => decide (m ≤ 8191)) && decide members.Nodup then some members else none

/-- A Lane Directory static part (R36). -/
def laneEntry (p : Packet) : Option LaneDir :=
  match Zone.ofCode (p.u8 13), flagOf (p.u8 15) with
  | some z, some f =>
    if 1023 ≤ p.u16 11 then none
    else some { node := p.u16 11, zone := z, burst := clamp 1 4 (p.u8 14), configured := f }
  | _, _ => none

/-- An Arch Map entry, scale fitted and lap arch (R38). -/
def archEntry (p : Packet) : Option (Bool × Bool) :=
  match flagOf (p.u8 11), flagOf (p.u8 12) with
  | some scale, some lap => some (scale, lap)
  | _, _ => none

/-- A Bay Table static part (R39). -/
def bayEntry (p : Packet) : Option BayDir :=
  if 1023 ≤ p.u16 11 ∨ 1023 ≤ p.u16 13 ∨ 16 ≤ p.u8 17 then none
  else some
    { diverter := p.u16 11, bayNode := p.u16 13, arch := p.u8 15, spur := clamp 4 32 (p.u8 16), zones := p.byte 17 }

/-- A bay node is held by another bay (R40). -/
def Part.nodeHeld (p : Part) (b node : Nat) : Bool :=
  node ≠ 0 && Config.bays.any (fun b' => b' ≠ b && (p.bayDir b').bayNode = node)

/-- The range of a hall constant (R42). -/
def constRange : Nat → Nat × Nat
  | 0 => (1, 255)
  | 1 => (1, 65535)
  | 2 => (1, 255)
  | 3 => (1, 255)
  | 4 => (1, 255)
  | 5 => (1, 65535)
  | 6 => (1, 15)
  | 7 => (1, 15)
  | 8 => (0, 255)
  | _ => (0, 512)

/-- One step of a Step Store group, its four bytes from frame byte `i` (R47, Table 2-4). -/
def stepEntry (p : Packet) (i : Nat) : Option Step :=
  let action (c : Bool) : Option Step :=
    if p.u8 (i + 1) = 0 then none else some (.action c (p.u8 (i + 1)) (p.u16 (i + 2)))
  match p.u8 i with
  | 0 => some .invalid
  | 1 => action false
  | 2 => action true
  | 3 => some (.wait (max 1 (p.u16 (i + 2))))
  | 4 => some (.note (p.u16 (i + 2)))
  | 5 => some .finish
  | _ => none

/-- The four steps of a group (R47): all or none. -/
def stepGroup (p : Packet) : Option (List Step) :=
  match stepEntry p 11, stepEntry p 15, stepEntry p 19, stepEntry p 23 with
  | some a, some b, some c, some d => some [a, b, c, d]
  | _, _, _, _ => none

/-- A Notice Routing entry (R49). -/
def routingEntry (p : Packet) : Option Routing :=
  match RouteAction.ofCode (p.u8 12) with
  | some a => if 4 < p.u8 11 then none else some { dest := p.u8 11, action := a, tags := p.u16 13 }
  | none => none

/-- A Notice Destinations entry (R50). -/
def destinationEntry (p : Packet) : Option Destination :=
  if 1023 < p.u16 11 then none else some { node := p.u16 11, pacing := p.u8 13 }

/-! ### Storing -/

/-- The Hall Tables changed. -/
def Part.modTables (f : Tables → Tables) (p : Part) : Part := { p with tables := f p.tables }

/-- Consecutive entries of a store replaced. -/
def Map.setRun {α : Type} [DecidableEq α] (d : α) (m : Map α) (start : Nat) : List α → Map α
  | [] => m
  | v :: rest => Map.setRun d (Map.set d m start v) (start + 1) rest

/-- The lap arch after a write of the lap-arch field of arch `a` (R38). -/
def lapMark (present a : Nat) (lap : Bool) : Nat := if lap then a else if present = a then 0 else present

/-- The Notice Destinations entry of `d` has been written (R195): a STALLED destination with a node tries again. -/
def Part.destinationWritten (d : Nat) (p : Part) : Part :=
  if (p.noticeQueue d).state = .stalled ∧ (p.destination d).node ≠ 0 then p.postAttempt d else p

/-- The entry of a table as a write carries it is checked, clamped and stored (R27 check 4 and after); `none` when a
field is meaningless. -/
def Part.storeEntry (t : TableId) (i : Nat) (pkt : Packet) (p : Part) : Option Part :=
  match t with
  | .articleMap =>
    (articleEntry pkt).map (fun e => p.modTables (fun x => { x with articles := Map.set {} x.articles i e }))
  | .groups => (groupEntry pkt).map (fun e => p.modTables (fun x => { x with groups := Map.set [] x.groups i e }))
  | .laneDirectory =>
    (laneEntry pkt).map (fun e => p.modTables (fun x => { x with laneDir := Map.set {} x.laneDir i e }))
  | .archMap =>
    (archEntry pkt).map (fun e => p.modTables (fun x =>
      { x with scales := Map.set false x.scales i e.1, lapArch := lapMark x.lapArch i e.2 }))
  | .bayTable =>
    (bayEntry pkt).bind (fun e =>
      if p.nodeHeld i e.bayNode then none
      else some (p.modTables (fun x => { x with bayDir := Map.set {} x.bayDir i e })))
  | .hallConstants =>
    some (p.modTables (fun x =>
      { x with consts := x.consts.set i (clamp (constRange i).1 (constRange i).2 (pkt.u16 11)) }))
  | .tares => some (p.modTables (fun x => { x with tares := x.tares.set i (min 4000 (pkt.u16 11)) }))
  | .calendar =>
    some (p.modTables (fun x =>
      { x with calendar := Map.setRun 0 x.calendar (16 * i) ((List.range' 11 16).map pkt.u8) }))
  | .zoneWeights =>
    some (p.modTables (fun x =>
      { x with weights := (List.range' 11 4).map (fun j => min 15 (pkt.u8 j)) })).reloadCredits
  | .styles =>
    if 2047 < pkt.u16 11 then none
    else some (p.modTables (fun x => { x with styles := Map.set 0 x.styles i (pkt.u16 11) }))
  | .stepStore =>
    (stepGroup pkt).map (fun g => p.modTables (fun x => { x with steps := Map.setRun .invalid x.steps (4 * i) g }))
  | .routing =>
    (routingEntry pkt).map (fun e => p.modTables (fun x => { x with routing := Map.set {} x.routing i e }))
  | .destinations =>
    (destinationEntry pkt).map (fun e =>
      (p.modTables (fun x => { x with dests := Map.set {} x.dests i e })).destinationWritten i)
  | .managers =>
    if 1023 ≤ pkt.u16 11 then none
    else some (p.modTables (fun x => { x with managers := Map.set 0 x.managers i (pkt.u16 11) }))

/-! ### Reading (R28, section 2.11) -/

/-- An Article Map entry in its layout. -/
def Article.bytes (a : Article) : List Byte :=
  bFlag a.valid ++ b8 a.zone.code ++ b16 a.nominal ++ b8 a.tolerance ++ b8 a.homeLane ++ b8 a.group

/-- A lane's directory entry and dynamic state (R37). -/
def Part.laneBytes (p : Part) (l : Nat) : List Byte :=
  let d := p.laneDir l
  let x := p.lane l
  b16 d.node ++ b8 d.zone.code ++ b8 d.burst ++ bFlag d.configured ++ bFlag x.online ++ bFlag x.stockOut ++
    b8 x.misses ++ bFlag x.busy.isSome ++ b16 x.queue.length

/-- A bay's table entry and dynamic fields (R41). -/
def Part.bayBytes (p : Part) (b : Nat) : List Byte :=
  let d := p.bayDir b
  let x := p.build b
  b16 d.diverter ++ b16 d.bayNode ++ b8 d.arch ++ b8 d.spur ++ [d.zones] ++ bFlag x.holdFlag ++ bFlag x.blocked ++
    bFlag (x.state ≠ .outOfService)

/-- A step in its layout (Table 2-4). -/
def Step.bytes : Step → List Byte
  | .invalid => b8 0 ++ b8 0 ++ b16 0
  | .action c code parameter => b8 (if c then 2 else 1) ++ b8 code ++ b16 parameter
  | .wait ticks => b8 3 ++ b8 0 ++ b16 ticks
  | .note tag => b8 4 ++ b8 0 ++ b16 tag
  | .finish => b8 5 ++ b8 0 ++ b16 0

/-- The entry of a table as a read returns it (section 2.11). -/
def Part.readEntry (p : Part) (t : TableId) (i : Nat) : List Byte :=
  match t with
  | .articleMap => (p.article i).bytes
  | .groups => ((fillIds (p.group i)).map b16).flatten
  | .laneDirectory => p.laneBytes i
  | .archMap => bFlag (p.scale i) ++ bFlag (p.tables.lapArch = i)
  | .bayTable => p.bayBytes i
  | .hallConstants => b16 (p.const i)
  | .tares => b16 (p.tare i)
  | .calendar => ((List.range' (16 * i) 16).map (fun j => b8 (p.calendarEntry j))).flatten
  | .zoneWeights => (p.tables.weights.map b8).flatten
  | .styles => b16 (p.styleStart i) ++ b8 (p.useCount i)
  | .stepStore => ((List.range' (4 * i) 4).map (fun j => (p.step j).bytes)).flatten
  | .routing =>
    let e : Routing := Map.get {} p.tables.routing i
    b8 e.dest ++ b8 e.action.code ++ b16 e.tags
  | .destinations => b16 (p.destination i).node ++ b8 (p.destination i).pacing
  | .managers => b16 (p.manager i)
where
  /-- A group's members filled with 0 to eight. -/
  fillIds (l : List Nat) : List Nat := l ++ List.replicate (8 - l.length) 0

/-- The reply data of a read (R28): the identifier, the index, the entry. -/
def Part.readData (p : Part) (code : Nat) (t : TableId) (i : Nat) : List Byte := b8 code ++ b16 i ++ p.readEntry t i

end Sys2Proof.Machine
end

