-- ==== Sys2Proof/Machine/Admin.lean ====
section
/-! DEFINITION. The Admin Unit (section 1.4): the manager check, the reply, and the part modes; the table requests of
chapter 2 and the counters of section 1.7.

A request's own part is a function from the part to a `Reply`: status, reply data and the part after the request. The
reply's entry in the normal queue is taken first (R19), so the frames the request itself posts stand behind it; its
contents are filled in when they are known. -/

namespace Sys2Proof.Machine

/-- What a request answers: its status, its reply data (empty unless OK), and the part after it. -/
structure Reply where
  status : Status
  data   : List Byte
  part   : Part
  deriving DecidableEq, Repr

/-- A refused request changes no state (R18). -/
def refuse (status : Status) (p : Part) : Reply := ⟨status, [], p⟩

/-- A request answered OK. -/
def accept (data : List Byte) (p : Part) : Reply := ⟨.ok, data, p⟩

/-- The source node may send requests (R20): both manager entries are empty, or it is one of them. -/
def Part.admits (p : Part) (src : Nat) : Bool :=
  (p.manager 1 = 0 && p.manager 2 = 0) || (src ≠ 0 && (p.manager 1 = src || p.manager 2 = src))

/-- The Admin Reply to a request (R19): request code and tag copied, status, data. -/
def replyTo (pkt : Packet) (status : Status) (data : List Byte) : Post :=
  ⟨.adminReply, pkt.src.toNat, replyPayload (pkt.byte 6) (pkt.byte 7) status.code data⟩

/-- The normal queue changed. -/
def Part.modNormal (f : List Post → List Post) (p : Part) : Part :=
  { p with ring := { p.ring with normal := f p.ring.normal } }

/-- A taken Admin Request (R18, R19): the manager check, then the request's own part. -/
def Part.takeRequest (pkt : Packet) (body : Part → Reply) (p : Part) : Part :=
  let n := p.ring.normal.length
  let p := p.modNormal (· ++ [replyTo pkt .ok []])
  let r := if p.admits pkt.src.toNat then body p else refuse .notManager p
  r.part.modNormal (fun q => q.set n (replyTo pkt r.status r.data))

/-- An Admin Request with a request code reaches the part. -/
def Part.adminRequest (code : RequestCode) (pkt : Packet) (body : Packet → Part → Reply) (p : Part) : Part :=
  let pkt := pkt.withCode code.code
  p.deliver .adminRequest pkt (fun q => q.takeRequest pkt (body pkt))

/-! ### TABLE_WRITE and TABLE_READ (R27 to R29) -/

/-- The checks of the identifier and the index of TABLE_WRITE and TABLE_READ (R27 checks 1 and 2, R28). -/
def tableNamed (pkt : Packet) : Except Status (TableId × Nat) :=
  match TableId.ofCode (pkt.u8 8) with
  | none => .error .badTable
  | some t => if t.inRange (pkt.u16 9) then .ok (t, pkt.u16 9) else .error .badIndex

/-- TABLE_WRITE (R27). -/
def tableWrite (pkt : Packet) (p : Part) : Reply :=
  match tableNamed pkt with
  | .error e => refuse e p
  | .ok (t, i) =>
    if t = .articleMap ∧ i = 0 then refuse .badValue p
    else
      match p.writeBar t i with
      | some e => refuse e p
      | none =>
        match p.storeEntry t i pkt with
        | none => refuse .badValue p
        | some p' => accept (p'.readData (pkt.u8 8) t i) p'

/-- TABLE_READ (R28). -/
def tableRead (pkt : Packet) (p : Part) : Reply :=
  match tableNamed pkt with
  | .error e => refuse e p
  | .ok (t, i) => accept (p.readData (pkt.u8 8) t i) p

/-! ### COUNTERS_READ (R26) -/

/-- How many counters a reply holds from a first index (R26). -/
def countersShown (first : Nat) : Nat := min 9 (25 - first)

/-- COUNTERS_READ (R26). -/
def countersRead (pkt : Packet) (p : Part) : Reply :=
  let first := pkt.u8 8
  if 24 < first then refuse .badIndex p
  else
    let n := countersShown first
    accept (b8 first ++ b8 n ++ ((List.range' first n).map (fun i => b16 (p.counter i))).flatten) p

/-! ### MODE (R22, R177) -/

/-- A FOREIGN record of a bay is given up at the change to CONFIG (R177): its carrier takes its prior state, and the
record is unlinked and freed. -/
def Part.giveUpForeign (b : Nat) (p : Part) (r : Nat) : Part :=
  let x := p.holdRec r
  match x.role with
  | .line _ => p
  | .foreign =>
    let c := p.carrier x.carrier
    let p :=
      match c.state with
      | .held _ _ role => p.setCarrier x.carrier (c.departed role x)
      | .returning _ _ role => p.setCarrier x.carrier (c.departed role x)
      | _ => p
    p.unlink b r

/-- An IDLE build at the change to CONFIG (R177; order of release: log entry 24). -/
def Part.giveUpBay (p : Part) (b : Nat) : Part :=
  if (p.build b).state = .idle then
    ((p.build b).hold.foldl (Part.giveUpForeign b) p).modBuild b (fun x => { x with foreigns := 0, pending := [] })
  else p

/-- A build in which the part may enter CONFIG (R22). -/
def BuildState.resting : BuildState → Bool
  | .idle => true
  | .outOfService => true
  | _ => false

/-- The part enters a mode other than its present one (R22). -/
def Part.enterMode (off : LaneAction) (m : Mode) (p : Part) : Part :=
  match m with
  | .config => { Config.bays.foldl Part.giveUpBay p with mode := .config }
  | .paused => { p with mode := .paused }
  | .run => Part.bindingEvent off Config.bays { p with mode := .run }

/-- MODE (R22). -/
def modeRequest (off : LaneAction) (pkt : Packet) (p : Part) : Reply :=
  match Mode.ofCode (pkt.u8 8) with
  | none => refuse .badValue p
  | some m =>
    if m = p.mode then accept [] p
    else if m = .config ∧ !(Config.bays.all (fun b => (p.build b).state.resting)) then refuse .badState p
    else accept [] (p.enterMode off m)

/-! ### RESTART (R24, R69, R100, R114, R143, R153, R154, R179, R198) -/

/-- Every listed entry replaced by its image, entries that become the default dropped. -/
def Map.remake {α : Type} [DecidableEq α] (d : α) (f : α → α) (m : Map α) : Map α :=
  (Map.mapValues f m).filter (fun kv => decide (kv.2 ≠ d))

/-- An order after a line restart (R69). -/
def Order.restarted (o : Order) : Order :=
  match o.state with
  | .bound _ => { o.resetLines with state := .waiting }
  | _ => o

/-- A build context after a line restart (R100): its state, epoch and hold flag apart, power-on values. -/
def Build.restarted (x : Build) : Build :=
  { state :=
      if x.state = .outOfService then .outOfService
      else if x.state = .draining && x.pendingOut then .outOfService
      else .idle,
    epoch := x.epoch, holdFlag := x.holdFlag }

/-- A call record after a line restart (R143). -/
def Call.restarted (c : Call) : Call := if c.state = .free then c else c.freed

/-- The lanes that are ONLINE after a line restart (R143), each with its dynamic state cleared. -/
def Part.restartedLanes (p : Part) : Map Lane :=
  (p.tables.laneDir.filter (fun kv => kv.2.configured && decide (kv.2.node ≠ 0))).map
    (fun kv => (kv.1, { online := true }))

/-- A line restart (R24). Of the insert queues one frame is kept: the request's own reply, the last one posted. -/
def Part.restart (p : Part) : Part :=
  { p with
    ring := { p.ring with urgent := [], normal := p.ring.normal.getLast?.toList, left := 0 }
    counters := []
    mode := .paused
    useCounts := []
    book := { p.book with orders := Map.mapValues Order.restarted p.book.orders }
    builds := Map.remake {} Build.restarted p.builds
    pool := {}
    calls :=
      { recs := Map.remake {} Call.restarted p.calls.recs, lanes := p.restartedLanes, seq := p.calls.seq }
    cal := { credits := p.tables.weights }
    carriers := []
    notices := [] }

/-- RESTART (R24). -/
def restartRequest (_ : Packet) (p : Part) : Reply := accept [] p.restart

end Sys2Proof.Machine
end

