-- ==== Sys2Proof/Machine/Orders.lean ====
section
/-! DEFINITION. The order requests (sections 3.3 and 3.4). Where a request causes a binding, the reply data is read after
the request's own changes and before the binding (R19, R59; log entry 16). -/

namespace Sys2Proof.Machine

/-- The order number field of the order requests (Table 3-1). -/
def orderNumber (pkt : Packet) : Nat := pkt.u32 8

/-- ORDER_HEAD's fields are all meaningful (R57 check 1). -/
def headSane (pkt : Packet) : Bool :=
  orderNumber pkt ≠ 0 && decide (pkt.u8 12 ≤ 3) && decide (pkt.u8 17 ≤ 63) && decide (1 ≤ pkt.u8 20) &&
    decide (pkt.u8 20 ≤ 16) && decide (pkt.u8 21 ≤ 1)

/-- The record that an ORDER_HEAD creates (R57). -/
def headOrder (pkt : Packet) (seq : Count32) : Order :=
  { priority := pkt.u8 12, due := BitVec.ofNat 32 (pkt.u32 13), style := pkt.u8 17,
    ceiling := clamp 500 30000 (pkt.u16 18), declared := pkt.u8 20, tolerant := pkt.u8 21 = 1, seq := seq }

/-- ORDER_HEAD (R57). -/
def orderHead (pkt : Packet) (p : Part) : Reply :=
  if !headSane pkt then refuse .badValue p
  else if Config.bookSize ≤ p.book.orders.length then refuse .full p
  else if (p.order? (orderNumber pkt)).isSome then refuse .duplicate p
  else
    let o := headOrder pkt (p.book.seq + 1)
    accept (b32 o.seq.toNat ++ b16 o.ceiling)
      { p with book := { orders := Map.put p.book.orders (orderNumber pkt) o, seq := o.seq } }

/-- ORDER_LINE's article, quantity and mode are meaningful (R58 check 4). -/
def Part.lineSane (p : Part) (pkt : Packet) : Bool :=
  pkt.u16 13 ≠ 0 && decide (pkt.u16 13 ≤ 8191) && (p.article (pkt.u16 13)).valid && pkt.u8 15 ≠ 0 &&
    decide (pkt.u8 16 ≤ 2)

/-- The line record that an ORDER_LINE adds (R58). -/
def sentLine (pkt : Packet) : Line :=
  newLine (pkt.u16 13) (min 15 (pkt.u8 15)) ((LineMode.ofCode (pkt.u8 16)).getD .home)

/-- An order with a line added (R58), in WAITING when that makes its line list complete (R59). -/
def Order.addLine (i : Nat) (l : Line) (o : Order) : Order :=
  let lines := Map.put o.lines i l
  { o with lines := lines, state := if lines.length = o.declared then .waiting else o.state }

/-- ORDER_LINE (R58, R59). -/
def orderLine (off : LaneAction) (pkt : Packet) (p : Part) : Reply :=
  match p.order? (orderNumber pkt) with
  | none => refuse .unknownOrder p
  | some o =>
    if o.state ≠ .draft then refuse .badState p
    else if o.declared ≤ pkt.u8 12 then refuse .badIndex p
    else if !p.lineSane pkt then refuse .badValue p
    else if (Map.find? o.lines (pkt.u8 12)).isSome then refuse .duplicate p
    else
      let l := sentLine pkt
      let o' := o.addLine (pkt.u8 12) l
      let p := p.modOrder (orderNumber pkt) (fun _ => o')
      accept (b8 o'.lines.length ++ b8 o'.state.code ++ b8 l.quantity)
        (if o'.state = .waiting then p.bindingEvent off Config.bays else p)

/-- ORDER_CANCEL (R60). -/
def orderCancel (off : LaneAction) (pkt : Packet) (p : Part) : Reply :=
  match p.order? (orderNumber pkt) with
  | none => refuse .unknownOrder p
  | some o =>
    let data := b8 o.state.code ++ b8 o.state.bay
    if o.state.terminal then refuse .badState p
    else
      match o.state with
      | .bound b =>
        if (p.build b).state = .clearing then refuse .badState p else accept data (p.abort off b .cancel)
      | _ => accept data (p.modOrder (orderNumber pkt) (fun o => { o with state := .cancelled }))

/-- The Order Book changed. -/
def Part.modOrders (f : Map Order → Map Order) (p : Part) : Part :=
  { p with book := { p.book with orders := f p.book.orders } }

/-- ORDER_PURGE (R61). -/
def orderPurge (pkt : Packet) (p : Part) : Reply :=
  let n := orderNumber pkt
  if n = 0 then
    let gone := p.book.orders.filter (fun kv => kv.2.state.terminal)
    accept (b16 gone.length) (p.modOrders (fun m => m.filter (fun kv => !kv.2.state.terminal)))
  else
    match p.order? n with
    | none => refuse .unknownOrder p
    | some o =>
      if o.state.terminal then accept (b16 1) (p.modOrders (fun m => Map.erase m n)) else refuse .badState p

/-- The header form of ORDER_READ (Table 3-1). -/
def Order.headerBytes (o : Order) : List Byte :=
  b8 o.state.code ++ b8 o.state.bay ++ b8 o.priority ++ b8 o.style ++ b8 o.declared ++ b8 o.lines.length ++
    bFlag o.tolerant ++ b16 o.ceiling ++ b32 o.due.toNat ++ b32 o.seq.toNat ++ b16 o.lineMask

/-- The line form of ORDER_READ (Table 3-1). -/
def Line.bytes (i : Nat) (l : Line) : List Byte :=
  b8 i ++ b16 l.article ++ b8 l.quantity ++ b8 l.mode.code ++ b8 l.member ++ b8 l.held ++ b8 l.enRoute ++
    b8 l.outstanding ++ b8 l.uncalled ++ b8 l.short ++ b8 (causeCode l.cause)

/-- ORDER_READ (R62). -/
def orderRead (pkt : Packet) (p : Part) : Reply :=
  match p.order? (orderNumber pkt) with
  | none => refuse .unknownOrder p
  | some o =>
    let sel := pkt.u8 12
    if sel = 255 then accept o.headerBytes p
    else if 15 < sel ∨ o.declared ≤ sel then refuse .badIndex p
    else
      match Map.find? o.lines sel with
      | none => refuse .badIndex p
      | some l => accept (l.bytes sel) p

end Sys2Proof.Machine
end

