-- ==== Sys2Proof/Machine/BayRequests.lean ====
section
/-! DEFINITION. The requests about bays and lanes: BUILD_READ (R112), BAY_SERVICE (R71, R72), BAY_HOLD (R73), BUILD_ABORT
(R92), SHORT_ACCEPT (R82), FINISH_RESUME and FINISH_SKIP (R187), LANE_STATE (R137). -/

namespace Sys2Proof.Machine

/-- The bay number field of the bay requests. -/
def bayNumber (pkt : Packet) : Nat := pkt.u8 8

/-- A bay number 1 to 64. -/
def bayKnown (b : Nat) : Bool := decide (1 ≤ b) && decide (b ≤ 64)

/-! ### BUILD_READ (R112, Table 5-2) -/

/-- The context form. -/
def Part.contextBytes (p : Part) (b : Nat) : List Byte :=
  let x := p.build b
  b8 x.state.code ++ b32 x.order ++ b8 x.epoch ++ b32 x.committed ++ b8 x.hold.length ++ b8 x.reserved ++
    b8 x.foreigns ++ b8 x.chilledHeld ++ b8 x.orphans ++ b8 x.chillCount ++ b8 x.pending.length ++ b8 x.flags ++
    b16 x.dwell.count

/-- The finish-fields form. -/
def Part.finishBytes (p : Part) (b : Nat) : List Byte :=
  let x := p.build b
  b8 (p.styleAt b) ++ b16 x.pointer ++ b8 x.stopCause.code ++ b8 x.stepTimer.count ++ b16 x.waitTimer.count ++
    bFlag x.heldStep.isSome

/-- The line index a record shows, 0 for FOREIGN. -/
def Role.lineIndex : Role → Nat
  | .line i => i
  | .foreign => 0

/-- The hold-record form: the record at a position of the hold list (R113). -/
def Part.holdBytes (p : Part) (b pos : Nat) : List Byte :=
  let list := (p.build b).hold
  let r := list.getD pos 0
  let x := p.holdRec r
  b8 pos ++ b16 r ++ b16 x.carrier ++ bFlag (!x.isLine) ++ b8 x.role.lineIndex ++ b16 x.article ++ b16 x.weight ++
    b8 x.flags ++ b8 x.mark.code ++ b32 x.arrival.toNat ++ b16 (nextOf list pos)

/-- The RESERVED records of the pool: the sum of the bays' reserved counts. -/
def Part.reservedTotal (p : Part) : Nat := (Config.bays.map (fun b => (p.build b).reserved)).sum

/-- The LISTED records of the pool: the sum of the hold-list counts. -/
def Part.listedTotal (p : Part) : Nat := (Config.bays.map (fun b => (p.build b).hold.length)).sum

/-- The pool summary form. -/
def Part.poolBytes (p : Part) : List Byte :=
  b16 p.pool.free.length ++ b16 p.reservedTotal ++ b16 p.listedTotal ++ b16 (p.pool.free.headD 0) ++ bFlag p.pool.armed

/-- BUILD_READ (R112). -/
def buildRead (pkt : Packet) (p : Part) : Reply :=
  let b := bayNumber pkt
  let sel := pkt.u8 9
  if 64 < b then refuse .badIndex p
  else if b = 0 then (if sel = 255 then accept p.poolBytes p else refuse .badIndex p)
  else if sel = 255 then accept (p.contextBytes b) p
  else if sel = 254 then accept (p.finishBytes b) p
  else if 31 < sel ∨ (p.build b).hold.length ≤ sel then refuse .badIndex p
  else accept (p.holdBytes b sel) p

/-! ### BAY_SERVICE and BAY_HOLD -/

/-- The reply data of BAY_SERVICE (R71). -/
def Part.serviceBytes (p : Part) (b : Nat) : List Byte :=
  b8 (p.build b).state.code ++ bFlag (p.build b).pendingOut

/-- The part after an accepted BAY_SERVICE, its reply data read before what follows. -/
def served (b : Nat) (next : Part → Part) (p : Part) : Reply := accept (p.serviceBytes b) (next p)

/-- BAY_SERVICE, direction in (R71). -/
def bayIn (off : LaneAction) (b : Nat) (p : Part) : Reply :=
  match (p.build b).state with
  | .outOfService =>
    let d := p.bayDir b
    if d.diverter = 0 ∨ d.bayNode = 0 ∨ d.arch = 0 then refuse .badValue p
    else served b (Part.bindingEvent off [b]) (p.modBuild b (fun x => { x with state := .idle }))
  | .draining => served b id (p.modBuild b (fun x => { x with pendingOut := false }))
  | _ => served b id p

/-- BAY_SERVICE, direction out (R72). -/
def bayOut (b : Nat) (p : Part) : Reply :=
  match (p.build b).state with
  | .idle =>
    if (p.build b).hold = [] then served b id (p.modBuild b (fun x => { x with state := .outOfService }))
    else refuse .badState p
  | .outOfService => served b id p
  | .draining => served b id (p.modBuild b (fun x => { x with pendingOut := true }))
  | _ => refuse .badState p

/-- BAY_SERVICE (R71, R72). -/
def bayService (off : LaneAction) (pkt : Packet) (p : Part) : Reply :=
  let b := bayNumber pkt
  if !bayKnown b then refuse .badIndex p
  else
    match pkt.u8 9 with
    | 0 => bayOut b p
    | 1 => bayIn off b p
    | _ => refuse .badValue p

/-- The reply data of BAY_HOLD (R73). R73 names the hold flag and the build state without byte positions; the flag in data
byte 0 and the state in data byte 1 are the model's (DESIGN CHOICE, log entry 45). -/
def Part.holdFlagBytes (p : Part) (b : Nat) : List Byte :=
  bFlag (p.build b).holdFlag ++ b8 (p.build b).state.code

/-- The bays that clearing a hold flag makes candidates (R64, R73): the bay, when its flag was set and its build is
IDLE. -/
def Part.unheld (p : Part) (b : Nat) (flag : Bool) : List Nat :=
  if (p.build b).holdFlag && !flag && (p.build b).state = .idle then [b] else []

/-- BAY_HOLD (R73). -/
def bayHold (off : LaneAction) (pkt : Packet) (p : Part) : Reply :=
  let b := bayNumber pkt
  if !bayKnown b then refuse .badIndex p
  else
    match flagOf (pkt.u8 9) with
    | none => refuse .badValue p
    | some flag =>
      let p' := p.modBuild b (fun x => { x with holdFlag := flag })
      accept (p'.holdFlagBytes b) (p'.bindingEvent off (p.unheld b flag))

/-! ### BUILD_ABORT and SHORT_ACCEPT -/

/-- The abort a requeue flag asks for (R92). -/
def abortKind (requeue : Bool) : AbortKind := if requeue then .requeue else .cancel

/-- The state an aborted order takes (R68), as the reply of BUILD_ABORT shows it (R92). -/
def AbortKind.orderState : AbortKind → OrderState
  | .requeue => .waiting
  | .cancel => .cancelled
  | .chillFailure => .failed

/-- BUILD_ABORT (R92). -/
def buildAbort (off : LaneAction) (pkt : Packet) (p : Part) : Reply :=
  let b := bayNumber pkt
  if !bayKnown b then refuse .badIndex p
  else
    match flagOf (pkt.u8 9) with
    | none => refuse .badValue p
    | some requeue =>
      if !(p.build b).state.abortable then refuse .badState p
      else
        accept (b32 (p.build b).order ++ b8 (abortKind requeue).orderState.code) (p.abort off b (abortKind requeue))

/-- SHORT_ACCEPT (R82). R82 names the build state that the reply carries without a byte position; data byte 0 is the
model's (DESIGN CHOICE, log entry 45). -/
def shortAccept (off : LaneAction) (pkt : Packet) (p : Part) : Reply :=
  let b := bayNumber pkt
  if !bayKnown b then refuse .badIndex p
  else if (p.build b).state ≠ .shortHold then refuse .badState p
  else
    let p := p.gathered off b
    accept (b8 (p.build b).state.code) p

/-! ### FINISH_RESUME and FINISH_SKIP (R187) -/

/-- The reply data of FINISH_RESUME and FINISH_SKIP. -/
def Part.finishReply (p : Part) (b : Nat) : List Byte :=
  b8 (p.build b).state.code ++ b16 (p.build b).pointer ++ b8 (p.build b).stopCause.code

/-- The build goes back to FINISHING (R187). -/
def Part.backToFinishing (b : Nat) (p : Part) : Part :=
  (p.modBuild b (fun x => { x with state := .finishing, stopCause := .none })).useStyle (p.styleAt b)

/-- FINISH_RESUME and FINISH_SKIP, by what they do at the pointer (R187). -/
def finishRequest (go : Nat → Part → Part) (pkt : Packet) (p : Part) : Reply :=
  let b := bayNumber pkt
  if !bayKnown b then refuse .badIndex p
  else if (p.build b).state ≠ .finishStopped then refuse .badState p
  else if !p.inFinishList (p.styleAt b) (p.build b).pointer then refuse .badState p
  else
    let p := go b (p.backToFinishing b)
    accept (p.finishReply b) p

/-! ### LANE_STATE (R137) -/

/-- The reply data of LANE_STATE. -/
def Part.laneReply (p : Part) (l : Nat) : List Byte :=
  let x := p.lane l
  bFlag x.online ++ bFlag x.stockOut ++ b8 x.misses ++ bFlag x.busy.isSome ++ b16 x.queue.length

/-- A lane number 1 to 255. -/
def laneKnown (l : Nat) : Bool := decide (1 ≤ l) && decide (l ≤ 255)

/-- LANE_STATE (R137). -/
def laneState (off : LaneAction) (pkt : Packet) (p : Part) : Reply :=
  let l := pkt.u8 8
  let answer (p : Part) : Reply := accept (p.laneReply l) p
  if !laneKnown l then refuse .badIndex p
  else
    match pkt.u8 9 with
    | 0 => answer (if (p.lane l).online then p.goOffline off l else p)
    | 1 =>
      if (p.laneDir l).node = 0 then refuse .badValue p
      else answer (p.modLane l (fun x => { x with online := true, misses := 0 }))
    | 2 => answer (p.clearStockOut l)
    | _ => refuse .badValue p

end Sys2Proof.Machine
end

