-- ==== Sys2Proof/Machine/Answers.lean ====
section
/-! DEFINITION. Answers (section 6.5): their class, the carriers they name, and what becomes of the call. -/

namespace Sys2Proof.Machine

/-- A FREE, SURPLUS or REJECT carrier that an Answer names outside a call becomes SURPLUS with an article, 0 for none
(R129, R132, R133). A carrier that was not SURPLUS is unverified; one that was is unverified without an article
(log entry 26), and with one keeps its verification or not as the free value says (log entry 25). -/
def Carrier.named (c article : Nat) (x : Carrier) : Carrier :=
  { x with
    state := .surplus, article := article,
    net := if x.state = .surplus ∧ article ≠ 0 ∧ Config.surplusKeepsNet c x.article article then x.net else none }

/-- A carrier id of an Answer that is not offered to a call: SURPLUS with an article, or a carrier conflict. -/
def Part.nameSurplus (article : Nat) (p : Part) (c : Nat) : Part :=
  if carrierId c && (p.carrier c).loose then p.setCarrier c ((p.carrier c).named c article) else p.count .conflicts

/-- A carrier id offered to call record `r` (R129): credited, or a carrier conflict. -/
def Part.creditCarrier (r : Nat) (p : Part) (c : Nat) : Part :=
  if carrierId c && (p.carrier c).loose then
    let x := p.call r
    let p := p.setCarrier c { state := .enRoute x.bay x.line, article := x.article }
    (p.modCall r (fun y => { y with count := y.count - 1 })).move x.bay x.line .outstanding .enRoute 1
  else p.count .conflicts

/-- The carrier ids an Answer lists, in its order (Table 1-2). -/
def answerIds (pkt : Packet) : List Nat := pkt.ids 11 (pkt.u8 10)

/-- The record of a current Answer after its carriers (R130): the first case that applies. -/
def Part.dispose (off : LaneAction) (r : Nat) (placed stockOut : Bool) (p : Part) : Part :=
  let c := p.call r
  if c.count = 0 then p.freeAndOffer off r
  else if c.expire then p.goShort off r .persistTimeout c.lane
  else if !placed then p.returnToQueue off r
  else if stockOut then
    match c.mode with
    | .home => p.goShort off r .laneEmpty c.lane
    | .persist => p.returnToQueue off r
    | .substitute => p.moveOn off r
  else p.returnToQueue off r

/-- A current Answer (R127 to R131): the timer and the lane's busy mark, the stock flag, the miss count, the carriers,
the record, and the miss that every FAULT outcome charges (R134; log entry 19). -/
def Part.currentAnswer (off : LaneAction) (r : Nat) (pkt : Packet) (p : Part) : Part :=
  let c := p.call r
  let who := p.whoOf c
  let placed := outcomePlaced pkt
  let p := (p.leaveLane c.lane r).modCall r (fun x => { x with answer := .stopped })
  let p := p.applyStock off c.lane (stockEmpty pkt) who
  let p := if placed then p.modLane c.lane (fun x => { x with misses := 0 }) else p
  let p := ((answerIds pkt).take c.sentCount).foldl (fun q id => q.creditCarrier r id) p
  let p := ((answerIds pkt).drop c.sentCount).foldl (fun q id => q.nameSurplus c.article id) p
  let p := p.dispose off r placed (stockEmpty pkt)
  if placed then p else p.miss off c.lane who

/-- An ORPHAN record ends (R133, R138): it is freed, its bay's orphan count falls, the end-of-drain test is made, and
the freed record is offered. -/
def Part.endOrphan (off : LaneAction) (r : Nat) (p : Part) : Part :=
  let b := (p.call r).bay
  let p := (p.freeCall r).modBuild b (fun x => { x with orphans := x.orphans - 1 })
  (p.drainTest off b).offer off r

/-- An orphan Answer (R133). -/
def Part.orphanAnswer (off : LaneAction) (r : Nat) (pkt : Packet) (p : Part) : Part :=
  let c := p.call r
  let p := p.applyStock off c.lane (stockEmpty pkt) { kind := .laneEmpty, bay := c.bay, article := c.article }
  let p := (answerIds pkt).foldl (fun q id => q.nameSurplus c.article id) p
  (p.count .lateAnswers).endOrphan off r

/-- A stale Answer (R132). Where its stock flag is applied to the lane on whose queue the record of its tag stands, that
record is resolved with the others of the queue (DEDUCED, log entry 43). -/
def Part.staleAnswer (off : LaneAction) (r : Nat) (pkt : Packet) (p : Part) : Part :=
  let l := (p.call r).lastLane
  let p :=
    if l ≠ 0 ∧ (p.laneDir l).node = pkt.src.toNat then p.applyStock off l (stockEmpty pkt) { kind := .laneEmpty }
    else p
  ((answerIds pkt).foldl (fun q id => q.nameSurplus 0 id) p).count .lateAnswers

/-- A taken Answer by its class (R127). -/
def Part.takeAnswer (off : LaneAction) (pkt : Packet) (p : Part) : Part :=
  let r := tagIndex (pkt.u16 6)
  if (p.call r).generation = tagHigh (pkt.u16 6) then
    match (p.call r).state with
    | .sent => p.currentAnswer off r pkt
    | .orphan => p.orphanAnswer off r pkt
    | _ => p.staleAnswer off r pkt
  else p.staleAnswer off r pkt

end Sys2Proof.Machine
end

