-- ==== Sys2Proof/Machine/Expiries.lean ====
section
/-! DEFINITION. Timer expiries as the blocks that own the timers take them (R17). Each acts on a timer whose expiry is
still to be taken, and does nothing without one (log entries 6 and 7). -/

namespace Sys2Proof.Machine

/-- The answer timer of a call record has expired (R138). -/
def Part.answerExpires (off : LaneAction) (r : Nat) (p : Part) : Part :=
  if (p.call r).answer = .expired then
    match (p.call r).state with
    | .sent => p.sentLost off r
    | .orphan => p.endOrphan off r
    | _ => p
  else p

/-- The retry timer of a call record has expired (R139). -/
def Part.retryExpires (r : Nat) (p : Part) : Part :=
  if (p.call r).retry = .expired ∧ (p.call r).state = .deferred then p.undefer r else p

/-- The persist timer of a call record has expired (R140). -/
def Part.persistExpires (off : LaneAction) (r : Nat) (p : Part) : Part :=
  if (p.call r).persist = .expired then
    match (p.call r).state with
    | .queued => p.goShort off r .persistTimeout (p.call r).lane
    | .deferred => p.goShort off r .persistTimeout (p.call r).lane
    | .sent => p.modCall r (fun c => { c with expire := true, persist := .stopped })
    | _ => p
  else p

/-- The steer confirm timer of a carrier has expired (R171). -/
def Part.confirmExpires (off : LaneAction) (c : Nat) (p : Part) : Part :=
  match (p.carrier c).state with
  | .steered b i r .expired => p.steerEnds off c b i r
  | _ => p

/-- The dwell timer of a bay's build has expired (R90). -/
def Part.dwellExpires (off : LaneAction) (b : Nat) (p : Part) : Part :=
  if (p.build b).dwell = .expired ∧ (p.build b).state = .gathering then p.chillExpires off b else p

/-- The step timer of a bay's build has expired (R184). -/
def Part.stepExpires (off : LaneAction) (b : Nat) (p : Part) : Part :=
  if (p.build b).stepTimer = .expired ∧ (p.build b).state = .finishing then p.stopBuild off b .timeout else p

/-- The wait timer of a bay's build has expired (R185). -/
def Part.waitExpires (off : LaneAction) (b : Nat) (p : Part) : Part :=
  if (p.build b).waitTimer = .expired ∧ (p.build b).state = .finishing then
    (p.modBuild b (fun x => { x with waitTimer := .stopped })).nextStep off b
  else p

/-- The pacing timer of a notice destination has expired (R195, R197): with an empty queue the destination becomes
IDLE, otherwise it makes a post attempt. -/
def Part.pacingExpires (d : Nat) (p : Part) : Part :=
  if (p.noticeQueue d).timer = .expired ∧ (p.noticeQueue d).state = .pacing then p.postAttempt d else p

end Sys2Proof.Machine
end

