-- ==== Sys2Proof/Machine/HallTime.lean ====
section
/-! DEFINITION. Hall Time (section 1.3): what an accepted Tick does, and the expiries that follow (R17). -/

namespace Sys2Proof.Machine

/-- The step a Tick with number `t` causes (R15, R16): 1 while the hall time is invalid; otherwise the rise of the tick
number, at most 16; none when the number does not rise. -/
def HallTime.stepTo (h : HallTime) (t : Count32) : Option Nat :=
  if !h.valid then some 1
  else if h.time.toNat < t.toNat then some (min Config.maxTickStep (t.toNat - h.time.toNat))
  else none

/-- A broadcast Tick at Hall Time (R15, R16): accepted, or counted and noticed as a tick fault. -/
def Part.takeTick (t : Count32) (p : Part) : Part :=
  match p.hall.stepTo t with
  | some s => Part.advanceTimers s { p with hall := { time := t, valid := true } }
  | none => (p.count .tickFaults).raise takeLaneOut { kind := .tickFault }

end Sys2Proof.Machine
end

