-- ==== Sys2Proof/Machine/Commands.lean ====
section
/-! DEFINITION. What the meanings of the commands share: a command's effect on the part, and the events that the part's
own blocks take. -/

namespace Sys2Proof.Machine

/-- The outcome of one command. -/
abbrev Result := Host.Outcome State Fault Refusal

/-- A command that changes the part. -/
def State.onPart (f : Part → Part) (s : State) : Result := .next { s with part := f s.part }

/-- An expiry is taken by its block; while RESETN is low nothing inside the part acts (R23; log entry 7). -/
def State.onExpiry (f : Part → Part) (s : State) : Result :=
  s.onPart (fun p => if p.ring.resetHeld then p else f p)

/-- A Bay Report with a subcode reaches the part (R7); `act` is what its block does with it at the bay it is attributed
to (R40). -/
def State.onReport (code : ReportCode) (pkt : Packet) (act : Nat → Packet → Part → Part) (s : State) : Result :=
  let pkt := pkt.withCode code.code
  s.onPart (fun p => p.deliver .bayReport pkt (fun q => q.onBay pkt (fun b => act b pkt)))

/-- An Admin Request with a request code reaches the part (R18). -/
def State.onRequest (code : RequestCode) (pkt : Packet) (body : Packet → Part → Reply) (s : State) : Result :=
  s.onPart (fun p => p.adminRequest code pkt body)

end Sys2Proof.Machine
end

