-- ==== Sys2Proof/Machine/AdminCommands.lean ====
section
/-! DEFINITION. The meanings of the Admin Requests. -/

namespace Sys2Proof.Machine

/-- BAD_REQUEST (R18, R19): a request whose code is not one of Table 1-3. A known code is another row's command
(log entry 12). -/
def execBadRequest (pkt : Packet) (s : State) : Result :=
  match RequestCode.ofCode (pkt.byte 6) with
  | some _ => .refused .knownRequest
  | none => s.onPart (fun p => p.deliver .adminRequest pkt (fun q => q.takeRequest pkt (refuse .badRequest)))

/-- TABLE_WRITE (R27, R29 to R51). -/
def execTableWrite (pkt : Packet) (s : State) : Result := s.onRequest .tableWrite pkt tableWrite

/-- TABLE_READ (R28, R37, R41, R46). -/
def execTableRead (pkt : Packet) (s : State) : Result := s.onRequest .tableRead pkt tableRead

/-- ORDER_HEAD (R57). -/
def execOrderHead (pkt : Packet) (s : State) : Result := s.onRequest .orderHead pkt orderHead

/-- ORDER_LINE (R58, R59). -/
def execOrderLine (pkt : Packet) (s : State) : Result := s.onRequest .orderLine pkt (orderLine takeLaneOut)

/-- ORDER_CANCEL (R60). -/
def execOrderCancel (pkt : Packet) (s : State) : Result := s.onRequest .orderCancel pkt (orderCancel takeLaneOut)

/-- ORDER_PURGE (R61). -/
def execOrderPurge (pkt : Packet) (s : State) : Result := s.onRequest .orderPurge pkt orderPurge

/-- ORDER_READ (R62). -/
def execOrderRead (pkt : Packet) (s : State) : Result := s.onRequest .orderRead pkt orderRead

/-- BUILD_READ (R112, R113). -/
def execBuildRead (pkt : Packet) (s : State) : Result := s.onRequest .buildRead pkt buildRead

/-- BAY_SERVICE (R71, R72). -/
def execBayService (pkt : Packet) (s : State) : Result := s.onRequest .bayService pkt (bayService takeLaneOut)

/-- BAY_HOLD (R73). -/
def execBayHold (pkt : Packet) (s : State) : Result := s.onRequest .bayHold pkt (bayHold takeLaneOut)

/-- BUILD_ABORT (R92 to R96). -/
def execBuildAbort (pkt : Packet) (s : State) : Result := s.onRequest .buildAbort pkt (buildAbort takeLaneOut)

/-- SHORT_ACCEPT (R82). -/
def execShortAccept (pkt : Packet) (s : State) : Result := s.onRequest .shortAccept pkt (shortAccept takeLaneOut)

/-- FINISH_RESUME (R187): the step at the pointer is executed again. -/
def execFinishResume (pkt : Packet) (s : State) : Result :=
  s.onRequest .finishResume pkt (fun f => finishRequest (fun b p => p.executeStep takeLaneOut b) f)

/-- FINISH_SKIP (R187): the pointer advances and the next step is executed. -/
def execFinishSkip (pkt : Packet) (s : State) : Result :=
  s.onRequest .finishSkip pkt (fun f => finishRequest (fun b p => p.nextStep takeLaneOut b) f)

/-- LANE_STATE (R137). -/
def execLaneState (pkt : Packet) (s : State) : Result := s.onRequest .laneState pkt (laneState takeLaneOut)

/-- MODE (R22, R177). -/
def execMode (pkt : Packet) (s : State) : Result := s.onRequest .mode pkt (modeRequest takeLaneOut)

/-- RESTART (R24). -/
def execRestart (pkt : Packet) (s : State) : Result := s.onRequest .restart pkt restartRequest

/-- COUNTERS_READ (R26). -/
def execCountersRead (pkt : Packet) (s : State) : Result := s.onRequest .countersRead pkt countersRead

end Sys2Proof.Machine
end

