-- ==== Sys2Proof/Machine/HallCommands.lean ====
section
/-! DEFINITION. The meanings of the hall's answers and reports, and of the timer expiries. -/

namespace Sys2Proof.Machine

/-- ANSWER (R7, R127 to R136). -/
def execAnswer (pkt : Packet) (s : State) : Result :=
  s.onPart (fun p => p.deliver .answer pkt (fun q => q.takeAnswer takeLaneOut pkt))

/-- ARRIVED (R172 to R174). -/
def execArrived (pkt : Packet) (s : State) : Result :=
  s.onReport .arrived pkt (fun b f p => p.arrive takeLaneOut b (f.u16 7))

/-- DEPARTED (R175, R109, R86). -/
def execDeparted (pkt : Packet) (s : State) : Result :=
  s.onReport .departed pkt (fun b f p => p.depart takeLaneOut b (f.u16 7))

/-- STEP_DONE (R183). -/
def execStepDone (pkt : Packet) (s : State) : Result :=
  s.onReport .stepDone pkt (fun b f p => p.stepReport b f (fun q => q.nextStep takeLaneOut b))

/-- STEP_REFUSED (R183). -/
def execStepRefused (pkt : Packet) (s : State) : Result :=
  s.onReport .stepRefused pkt (fun b f p => p.stepReport b f (fun q => q.stepRefusedAt takeLaneOut b))

/-- STEP_FAULT (R183). -/
def execStepFault (pkt : Packet) (s : State) : Result :=
  s.onReport .stepFault pkt (fun b f p => p.stepReport b f (fun q => q.stopBuild takeLaneOut b .fault))

/-- CLEARED (R97 to R99). -/
def execCleared (pkt : Packet) (s : State) : Result :=
  s.onReport .cleared pkt (fun b f p => p.clearedAt takeLaneOut b (f.u8 9))

/-- BLOCKED (R75). -/
def execBlocked (pkt : Packet) (s : State) : Result :=
  s.onReport .blocked pkt (fun b _ p => p.setBlocked b true)

/-- UNBLOCKED (R75). -/
def execUnblocked (pkt : Packet) (s : State) : Result :=
  s.onReport .unblocked pkt (fun b _ p => p.setBlocked b false)

/-- ANSWER_TIMEOUT of a call record (R138). -/
def execAnswerTimeout (record : Nat) (s : State) : Result := s.onExpiry (fun p => p.answerExpires takeLaneOut record)

/-- RETRY_TIMEOUT of a call record (R139). -/
def execRetryTimeout (record : Nat) (s : State) : Result := s.onExpiry (fun p => p.retryExpires record)

/-- PERSIST_TIMEOUT of a call record (R140). -/
def execPersistTimeout (record : Nat) (s : State) : Result := s.onExpiry (fun p => p.persistExpires takeLaneOut record)

/-- STEER_CONFIRM_TIMEOUT of a carrier (R171). -/
def execSteerConfirmTimeout (carrier : Nat) (s : State) : Result :=
  s.onExpiry (fun p => p.confirmExpires takeLaneOut carrier)

/-- CHILL_EXPIRY of a bay's build (R90, R91). -/
def execChillExpiry (bay : Nat) (s : State) : Result := s.onExpiry (fun p => p.dwellExpires takeLaneOut bay)

/-- STEP_TIMEOUT of a bay's build (R184). -/
def execStepTimeout (bay : Nat) (s : State) : Result := s.onExpiry (fun p => p.stepExpires takeLaneOut bay)

/-- WAIT_TIMEOUT of a bay's build (R185). -/
def execWaitTimeout (bay : Nat) (s : State) : Result := s.onExpiry (fun p => p.waitExpires takeLaneOut bay)

/-- PACING_TIMEOUT of a notice destination (R195, R197). -/
def execPacingTimeout (dest : Nat) (s : State) : Result := s.onExpiry (fun p => p.pacingExpires dest)

end Sys2Proof.Machine
end

