-- ==== Sys2Proof/Machine/RingCommands.lean ====
section
/-! DEFINITION. The meanings of the Ring Port's commands: the reset, slots passing the port, the slot arbiter, the part's
own frames coming round, and the three broadcasts. -/

namespace Sys2Proof.Machine

/-- POWER_ON_RESET (R3, R23). While RESETN is low the slots pass unchecked; at the reset's end the straps are read and
every block takes its power-on value (log entry 10). -/
def execPowerOnReset (event : ResetEvent) (s : State) : Result :=
  s.onPart (fun p =>
    match event with
    | .held => { p with ring := { p.ring with resetHeld := true } }
    | .ended straps => (Part.powerOn straps).putSlot p.ring.slot)

/-- SLOT_FORWARD (R1, R3, R4, R6, R7, R23): a slot that the part neither strips, takes nor reads goes on unchanged; one
it leaves untaken is counted. A slot the part acts on is another row's command (log entry 11). -/
def execSlotForward (slot : Frame) (s : State) : Result :=
  if s.part.ring.resetHeld then s.onPart (·.putSlot slot)
  else if !slot.sound then .refused .slotActedOn
  else
    match Kind.ofCode slot.kind with
    | none => s.onPart (·.putSlot slot)
    | some kind =>
      match s.part.verdict kind slot.packet with
      | .pass => s.onPart (·.putSlot slot)
      | .untaken => s.onPart (fun p => (p.putSlot slot).count .untaken)
      | .deferred => s.onPart (fun p => (p.putSlot slot).count .deferred)
      | .strip _ _ => .refused .slotActedOn
      | .read => .refused .slotActedOn
      | .take => .refused .slotActedOn
      | .discard => .refused .slotActedOn

/-- DAMAGED_FRAME (R5, R23): the slot is made Empty and counted. While RESETN is low nothing is checked and the slot goes
on as it is. A slot whose check word is right is no damaged frame (log entry 12). -/
def execDamagedFrame (slot : Frame) (s : State) : Result :=
  if s.part.ring.resetHeld then s.onPart (·.putSlot slot)
  else if slot.sound then .refused .slotSound
  else s.onPart (fun p => (p.putSlot emptyFrame).count .damaged)

/-- EMPTY_SLOT_FILL (R13). -/
def execEmptySlotFill (s : State) : Result := s.onPart Part.fillSlot

/-- NORMAL_ENTRY_LEFT (R14). -/
def execNormalEntryLeft (s : State) : Result := s.onPart Part.entryLeft

/-- OWN_FRAME_STRIP (R8): one of the part's own frames comes round. -/
def execOwnFrameStrip (kind : SentKind) (pkt : Packet) (s : State) : Result := s.onPart (Part.ownKind kind pkt)

/-- CALL_UNDELIVERED (R8, R9). -/
def execCallUndelivered (pkt : Packet) (s : State) : Result := s.onPart (Part.ownKind .call pkt)

/-- STEER_UNDELIVERED (R8, R9). -/
def execSteerUndelivered (pkt : Packet) (s : State) : Result := s.onPart (Part.ownKind .steer pkt)

/-- BAY_COMMAND_UNDELIVERED (R8, R10). -/
def execBayCommandUndelivered (pkt : Packet) (s : State) : Result := s.onPart (Part.ownKind .bayCommand pkt)

/-- NOTICE_UNDELIVERED (R8, R11). -/
def execNoticeUndelivered (pkt : Packet) (s : State) : Result := s.onPart (Part.ownKind .notice pkt)

/-- ADMIN_REPLY_UNDELIVERED (R8, R11). -/
def execAdminReplyUndelivered (pkt : Packet) (s : State) : Result := s.onPart (Part.ownKind .adminReply pkt)

/-- TICK (R6, R15 to R17). -/
def execTick (pkt : Packet) (s : State) : Result :=
  s.onPart (fun p => p.deliver .tick pkt (fun q => q.takeTick (BitVec.ofNat 32 (pkt.u32 6))))

/-- PITCH (R6, R144 to R150). -/
def execPitch (pkt : Packet) (s : State) : Result :=
  s.onPart (fun p => p.deliver .pitch pkt (fun q => q.opportunity))

/-- SIGHTING (R6, R156 to R171). -/
def execSighting (pkt : Packet) (s : State) : Result :=
  s.onPart (fun p => p.deliver .sighting pkt (fun q => q.sight takeLaneOut (sightOf pkt)))

end Sys2Proof.Machine
end

