-- ==== Sys2Proof/Machine/Dispatch.lean ====
section
/-! DEFINITION. The dispatch: one meaning for each command. -/

namespace Sys2Proof.Machine

/-- A command's effect on everything but the queue of commands. -/
def exec (i : Instr) (s : State) : Host.Outcome State Fault Refusal :=
  match i with
  | .powerOnReset event => Sys2Proof.Machine.execPowerOnReset event s
  | .slotForward slot => Sys2Proof.Machine.execSlotForward slot s
  | .damagedFrame slot => Sys2Proof.Machine.execDamagedFrame slot s
  | .emptySlotFill => Sys2Proof.Machine.execEmptySlotFill s
  | .normalEntryLeft => Sys2Proof.Machine.execNormalEntryLeft s
  | .ownFrameStrip kind pkt => Sys2Proof.Machine.execOwnFrameStrip kind pkt s
  | .callUndelivered pkt => Sys2Proof.Machine.execCallUndelivered pkt s
  | .steerUndelivered pkt => Sys2Proof.Machine.execSteerUndelivered pkt s
  | .bayCommandUndelivered pkt => Sys2Proof.Machine.execBayCommandUndelivered pkt s
  | .noticeUndelivered pkt => Sys2Proof.Machine.execNoticeUndelivered pkt s
  | .adminReplyUndelivered pkt => Sys2Proof.Machine.execAdminReplyUndelivered pkt s
  | .tick pkt => Sys2Proof.Machine.execTick pkt s
  | .pitch pkt => Sys2Proof.Machine.execPitch pkt s
  | .sighting pkt => Sys2Proof.Machine.execSighting pkt s
  | .answer pkt => Sys2Proof.Machine.execAnswer pkt s
  | .arrived pkt => Sys2Proof.Machine.execArrived pkt s
  | .departed pkt => Sys2Proof.Machine.execDeparted pkt s
  | .stepDone pkt => Sys2Proof.Machine.execStepDone pkt s
  | .stepRefused pkt => Sys2Proof.Machine.execStepRefused pkt s
  | .stepFault pkt => Sys2Proof.Machine.execStepFault pkt s
  | .cleared pkt => Sys2Proof.Machine.execCleared pkt s
  | .blocked pkt => Sys2Proof.Machine.execBlocked pkt s
  | .unblocked pkt => Sys2Proof.Machine.execUnblocked pkt s
  | .answerTimeout record => Sys2Proof.Machine.execAnswerTimeout record s
  | .retryTimeout record => Sys2Proof.Machine.execRetryTimeout record s
  | .persistTimeout record => Sys2Proof.Machine.execPersistTimeout record s
  | .steerConfirmTimeout carrier => Sys2Proof.Machine.execSteerConfirmTimeout carrier s
  | .chillExpiry bay => Sys2Proof.Machine.execChillExpiry bay s
  | .stepTimeout bay => Sys2Proof.Machine.execStepTimeout bay s
  | .waitTimeout bay => Sys2Proof.Machine.execWaitTimeout bay s
  | .pacingTimeout dest => Sys2Proof.Machine.execPacingTimeout dest s
  | .badRequest pkt => Sys2Proof.Machine.execBadRequest pkt s
  | .tableWrite pkt => Sys2Proof.Machine.execTableWrite pkt s
  | .tableRead pkt => Sys2Proof.Machine.execTableRead pkt s
  | .orderHead pkt => Sys2Proof.Machine.execOrderHead pkt s
  | .orderLine pkt => Sys2Proof.Machine.execOrderLine pkt s
  | .orderCancel pkt => Sys2Proof.Machine.execOrderCancel pkt s
  | .orderPurge pkt => Sys2Proof.Machine.execOrderPurge pkt s
  | .orderRead pkt => Sys2Proof.Machine.execOrderRead pkt s
  | .buildRead pkt => Sys2Proof.Machine.execBuildRead pkt s
  | .bayService pkt => Sys2Proof.Machine.execBayService pkt s
  | .bayHold pkt => Sys2Proof.Machine.execBayHold pkt s
  | .buildAbort pkt => Sys2Proof.Machine.execBuildAbort pkt s
  | .shortAccept pkt => Sys2Proof.Machine.execShortAccept pkt s
  | .finishResume pkt => Sys2Proof.Machine.execFinishResume pkt s
  | .finishSkip pkt => Sys2Proof.Machine.execFinishSkip pkt s
  | .laneState pkt => Sys2Proof.Machine.execLaneState pkt s
  | .mode pkt => Sys2Proof.Machine.execMode pkt s
  | .restart pkt => Sys2Proof.Machine.execRestart pkt s
  | .countersRead pkt => Sys2Proof.Machine.execCountersRead pkt s

end Sys2Proof.Machine
end

