-- ==== Sys2Proof/WellFormed.lean ====
section
/-! DEFINITION. Well-formed commands: the operands a row of the table can have. -/

namespace Sys2Proof

/-- A frame has a payload of 24 bytes (R1). -/
def Packet.wf (pkt : Packet) : Bool := decide (pkt.payload.length = 24)

/-- A Bay Report carries the subcode of its row (Table 1-3). -/
def Packet.wfReport (code : ReportCode) (pkt : Packet) : Bool := pkt.wf && pkt.byte 6 = code.code

/-- An Admin Request carries the request code of its row (Table 1-3). -/
def Packet.wfRequest (code : RequestCode) (pkt : Packet) : Bool := pkt.wf && pkt.byte 6 = code.code

/-- An undelivered own frame is unicast with its Taken mark clear (R8). -/
def Packet.wfUndelivered (pkt : Packet) : Bool := pkt.wf && pkt.undelivered

/-- A call record number (R115). -/
def recordKnown (r : Nat) : Bool := decide (r < 512)

/-- A bay number (R70). -/
def bayInRange (b : Nat) : Bool := decide (1 ≤ b) && decide (b ≤ 64)

/-- A command is well formed: its operands are in the ranges the spec gives them. -/
def Instr.wf (i : Instr) : Bool :=
  match i with
  | .powerOnReset _ => true
  | .slotForward f => f.packet.wf && f.sound
  | .damagedFrame f => f.packet.wf && !f.sound
  | .emptySlotFill => true
  | .normalEntryLeft => true
  | .ownFrameStrip _ pkt => pkt.wf && !pkt.undelivered
  | .callUndelivered pkt => pkt.wfUndelivered
  | .steerUndelivered pkt => pkt.wfUndelivered
  | .bayCommandUndelivered pkt => pkt.wfUndelivered
  | .noticeUndelivered pkt => pkt.wfUndelivered
  | .adminReplyUndelivered pkt => pkt.wfUndelivered
  | .tick pkt => pkt.wf
  | .pitch pkt => pkt.wf
  | .sighting pkt => pkt.wf
  | .answer pkt => pkt.wf
  | .arrived pkt => pkt.wfReport .arrived
  | .departed pkt => pkt.wfReport .departed
  | .stepDone pkt => pkt.wfReport .stepDone
  | .stepRefused pkt => pkt.wfReport .stepRefused
  | .stepFault pkt => pkt.wfReport .stepFault
  | .cleared pkt => pkt.wfReport .cleared
  | .blocked pkt => pkt.wfReport .blocked
  | .unblocked pkt => pkt.wfReport .unblocked
  | .answerTimeout r => recordKnown r
  | .retryTimeout r => recordKnown r
  | .persistTimeout r => recordKnown r
  | .steerConfirmTimeout c => Machine.carrierId c
  | .chillExpiry b => bayInRange b
  | .stepTimeout b => bayInRange b
  | .waitTimeout b => bayInRange b
  | .pacingTimeout d => decide (1 ≤ d) && decide (d ≤ 4)
  | .badRequest pkt => pkt.wf && (RequestCode.ofCode (pkt.byte 6)).isNone
  | .tableWrite pkt => pkt.wfRequest .tableWrite
  | .tableRead pkt => pkt.wfRequest .tableRead
  | .orderHead pkt => pkt.wfRequest .orderHead
  | .orderLine pkt => pkt.wfRequest .orderLine
  | .orderCancel pkt => pkt.wfRequest .orderCancel
  | .orderPurge pkt => pkt.wfRequest .orderPurge
  | .orderRead pkt => pkt.wfRequest .orderRead
  | .buildRead pkt => pkt.wfRequest .buildRead
  | .bayService pkt => pkt.wfRequest .bayService
  | .bayHold pkt => pkt.wfRequest .bayHold
  | .buildAbort pkt => pkt.wfRequest .buildAbort
  | .shortAccept pkt => pkt.wfRequest .shortAccept
  | .finishResume pkt => pkt.wfRequest .finishResume
  | .finishSkip pkt => pkt.wfRequest .finishSkip
  | .laneState pkt => pkt.wfRequest .laneState
  | .mode pkt => pkt.wfRequest .mode
  | .restart pkt => pkt.wfRequest .restart
  | .countersRead pkt => pkt.wfRequest .countersRead

/-- A slot that is SLOT_FORWARD's own for a part with a node number: one that holds no frame of a kind the part
exchanges, another node's frame of a kind the part sends, or a Bay Report with a subcode of no row. -/
def Frame.passing (node : Half) (f : Frame) : Bool :=
  match Kind.ofCode f.kind with
  | none => true
  | some .bayReport => !reportChecks f.packet
  | some k => k.sent?.isSome && decide (f.packet.src ≠ node)

/-- The slot of a command reaches a part with a node number as that command: an own frame carries the node as its
source, and a passed slot is one that no other row is for. -/
def Instr.reaches (node : Half) (i : Instr) : Bool :=
  match i with
  | .slotForward f => f.passing node
  | .ownFrameStrip _ pkt => pkt.src = node
  | .callUndelivered pkt => pkt.src = node
  | .steerUndelivered pkt => pkt.src = node
  | .bayCommandUndelivered pkt => pkt.src = node
  | .noticeUndelivered pkt => pkt.src = node
  | .adminReplyUndelivered pkt => pkt.src = node
  | _ => true

end Sys2Proof
end

