-- ==== Sys2Proof/Safety.lean ====
section
/-! DEFINITION. The terms the statements use: which frames a part receives, the slots it passes on, the reply of a
request, the bounds that hold of every part a run reaches, and the relations between the part before and after the
events that several commands share. -/

namespace Sys2Proof.Machine

/-! ### Frames at the Ring Port -/

/-- The part is a live node of the ring: RESETN is high and its straps give a node number (R3, R23). -/
def Part.listening (p : Part) : Bool := !p.inert

/-- A frame addressed to the part that has not been taken (R7). -/
abbrev Part.receives (p : Part) (pkt : Packet) : Prop :=
  p.listening = true ∧ pkt.dst = p.node ∧ pkt.taken = false

/-- A broadcast frame at a live part (R6). -/
abbrev Part.hears (p : Part) (pkt : Packet) : Prop := p.listening = true ∧ pkt.dst = Config.broadcast

/-- A Bay Report of the row with a subcode, taken from an in-service bay while the part is in RUN or PAUSED (R7, R40). -/
abbrev Part.receivesReport (p : Part) (code : ReportCode) (pkt : Packet) (b : Nat) : Prop :=
  pkt.wfReport code = true ∧ p.receives pkt ∧ p.mode ≠ .config ∧ p.reportBay pkt.src.toNat = some b

/-- An Admin Request of the row with a request code, taken and past the manager check (R18, R20). -/
abbrev Part.receivesRequest (p : Part) (code : RequestCode) (pkt : Packet) : Prop :=
  pkt.wfRequest code = true ∧ p.receives pkt ∧ p.ring.normal.length < 48 ∧ p.admits pkt.src.toNat = true

/-- One of the part's own frames come round undelivered (R8). -/
abbrev Part.ownReturned (p : Part) (pkt : Packet) : Prop :=
  pkt.wf = true ∧ p.listening = true ∧ pkt.src = p.node ∧ pkt.dst ≠ 1023 ∧ pkt.taken = false

/-- The slot goes on as it came (R4). -/
def Part.passOn (kind : Kind) (pkt : Packet) (p : Part) : Part := p.putSlot (pkt.seal kind.code)

/-- The slot goes on with its Taken mark set and its check word 1 lower (R2, R7). -/
def Part.takeOn (kind : Kind) (pkt : Packet) (p : Part) : Part := p.putSlot (pkt.seal kind.code).take

/-- The undelivered own frame is stripped and counted for its kind (R8). -/
def Part.stripCounted (kind : SentKind) (p : Part) : Part := (p.putSlot emptyFrame).count (.undelivered kind)

/-- The request is taken and its reply posted (R19). -/
def Part.replied (pkt : Packet) (status : Status) (data : List Byte) (p : Part) : Part :=
  (p.takeOn .adminRequest pkt).modNormal (fun q => q ++ [replyTo pkt status data])

/-- A frame joins the tail of the normal queue (R12). -/
def Part.posted (x : Post) (p : Part) : Part := p.modNormal (fun q => q ++ [x])

/-- The kind and frame of a row that is a frame other nodes send to the part: the three broadcasts, the Answer, the Bay
Reports and the Admin Requests (R1). -/
def received (i : Instr) : Option (Kind × Packet) :=
  match i with
  | .powerOnReset _ => none
  | .slotForward _ => none
  | .damagedFrame _ => none
  | .emptySlotFill => none
  | .normalEntryLeft => none
  | .ownFrameStrip _ _ => none
  | .callUndelivered _ => none
  | .steerUndelivered _ => none
  | .bayCommandUndelivered _ => none
  | .noticeUndelivered _ => none
  | .adminReplyUndelivered _ => none
  | .tick pkt => some (.tick, pkt)
  | .pitch pkt => some (.pitch, pkt)
  | .sighting pkt => some (.sighting, pkt)
  | .answer pkt => some (.answer, pkt)
  | .arrived pkt => some (.bayReport, pkt)
  | .departed pkt => some (.bayReport, pkt)
  | .stepDone pkt => some (.bayReport, pkt)
  | .stepRefused pkt => some (.bayReport, pkt)
  | .stepFault pkt => some (.bayReport, pkt)
  | .cleared pkt => some (.bayReport, pkt)
  | .blocked pkt => some (.bayReport, pkt)
  | .unblocked pkt => some (.bayReport, pkt)
  | .answerTimeout _ => none
  | .retryTimeout _ => none
  | .persistTimeout _ => none
  | .steerConfirmTimeout _ => none
  | .chillExpiry _ => none
  | .stepTimeout _ => none
  | .waitTimeout _ => none
  | .pacingTimeout _ => none
  | .badRequest pkt => some (.adminRequest, pkt)
  | .tableWrite pkt => some (.adminRequest, pkt)
  | .tableRead pkt => some (.adminRequest, pkt)
  | .orderHead pkt => some (.adminRequest, pkt)
  | .orderLine pkt => some (.adminRequest, pkt)
  | .orderCancel pkt => some (.adminRequest, pkt)
  | .orderPurge pkt => some (.adminRequest, pkt)
  | .orderRead pkt => some (.adminRequest, pkt)
  | .buildRead pkt => some (.adminRequest, pkt)
  | .bayService pkt => some (.adminRequest, pkt)
  | .bayHold pkt => some (.adminRequest, pkt)
  | .buildAbort pkt => some (.adminRequest, pkt)
  | .shortAccept pkt => some (.adminRequest, pkt)
  | .finishResume pkt => some (.adminRequest, pkt)
  | .finishSkip pkt => some (.adminRequest, pkt)
  | .laneState pkt => some (.adminRequest, pkt)
  | .mode pkt => some (.adminRequest, pkt)
  | .restart pkt => some (.adminRequest, pkt)
  | .countersRead pkt => some (.adminRequest, pkt)

/-- A kind that is broadcast (R6). -/
def isBroadcast (k : Kind) : Bool := k = .pitch || k = .tick || k = .sighting

/-! ### The bounds of the stores -/

/-- The bounds the spec gives the insert queues (R12), the counters (R25), the Order Book (R53) and the notice queues
and lost counts (R192), and the canonical form of the book. -/
def Part.Bounded (p : Part) : Prop :=
  p.ring.urgent.length ≤ 16 ∧ p.ring.normal.length ≤ 48 ∧ (∀ i, p.counter i ≤ 65535) ∧
    p.book.orders.length ≤ 1024 ∧ Map.rising p.book.orders = true ∧
    ∀ d, (p.noticeQueue d).queue.length ≤ 16 ∧ (p.noticeQueue d).lost ≤ 255

/-! ### Parts that read the same -/

/-- Two parts agree: every queue, register and entry reads the same in both. Only the way a sparse store lists its
entries may differ (log entry 13). -/
structure Part.Same (p q : Part) : Prop where
  ring : p.ring = q.ring
  counter : ∀ i, p.counter i = q.counter i
  hall : p.hall = q.hall
  mode : p.mode = q.mode
  tables : p.tables = q.tables
  useCount : ∀ y, p.useCount y = q.useCount y
  book : p.book = q.book
  build : ∀ b, p.build b = q.build b
  free : p.pool.free = q.pool.free
  armed : p.pool.armed = q.pool.armed
  holdRec : ∀ r, p.holdRec r = q.holdRec r
  call : ∀ r, p.call r = q.call r
  lane : ∀ l, p.lane l = q.lane l
  seq : p.calls.seq = q.calls.seq
  cal : p.cal = q.cal
  carrier : ∀ c, p.carrier c = q.carrier c
  noticeQueue : ∀ d, p.noticeQueue d = q.noticeQueue d

/-! ### Events that several commands share -/

/-- A post attempt by destination `d` (R195): with nothing queued the destination is IDLE; without a node it is STALLED; a
full normal queue makes it WAITING; otherwise the head leaves with the lost count, and the destination paces, is IDLE, or,
where the pacing interval is 0 and more is queued, tries again. -/
def Part.triesToPost (d : Nat) (p t : Part) : Prop :=
  let q := p.noticeQueue d
  let node := (p.destination d).node
  let pacing := (p.destination d).pacing
  (q.queue = [] → t.Same (p.setNoticeQueue d { q with timer := .stopped, state := .idle })) ∧
  ∀ e rest, q.queue = e :: rest →
    let sent := p.posted ⟨.notice, node, noticePayload e q.lost⟩
    (node = 0 → t.Same (p.setNoticeQueue d { q with timer := .stopped, state := .stalled })) ∧
    (node ≠ 0 → 48 ≤ p.ring.normal.length →
      t.Same (p.setNoticeQueue d { q with timer := .stopped, state := .waiting })) ∧
    (node ≠ 0 → p.ring.normal.length < 48 → 0 < pacing →
      t.Same (sent.setNoticeQueue d { queue := rest, lost := 0, timer := .running pacing, state := .pacing })) ∧
    (node ≠ 0 → p.ring.normal.length < 48 → pacing = 0 → rest = [] →
      t.Same (sent.setNoticeQueue d { queue := [], lost := 0, timer := .stopped, state := .idle })) ∧
    (node ≠ 0 → p.ring.normal.length < 48 → pacing = 0 → rest ≠ [] →
      t = (sent.setNoticeQueue d { queue := rest, lost := 0, timer := .stopped, state := q.state }).postAttempt d)

/-- Units of line `i` of a GATHERING build go short, the line's counts moving as `moved` says: LINE_SHORT is raised naming
the lane, 0 for none, and the completion test is made (R77, R78). -/
def Part.goesShort (off : LaneAction) (b i : Nat) (moved : Line → Line) (lane : Nat) (p t : Part) : Prop :=
  ∀ l, (p.build b).state = .gathering → p.lineAt b i = some l → ∃ u : Part,
    u.Same (p.modLine b i moved) ∧
    t = (u.raise off
      { kind := .lineShort, bay := b, order := (p.build b).order, article := l.article, lane := lane }).completionTest off b

/-- The count of a call record of a GATHERING build goes short with a cause that names a lane: the record leaves its lane,
the units move from outstanding to short and their weight leaves the build, LINE_SHORT is raised, the completion test is
made, and the record is freed and offered (R77 to R79, R125; log entry 18). -/
def Part.endsShort (off : LaneAction) (r : Nat) (cause : ShortCause) (lane : Nat) (p t : Part) : Prop :=
  let c := p.call r
  0 < c.count → ∃ u : Part,
    (((p.modLane c.lane (fun x =>
      { x with queue := x.queue.filter (· ≠ r), busy := if x.busy = some r then none else x.busy })).modCall r (fun x =>
        { x with count := 0 })).modBuild c.bay (fun x =>
          { x with committed := x.committed - c.count * c.nominal })).goesShort off c.bay c.line (fun l =>
      { l with outstanding := l.outstanding - c.count, short := l.short + c.count, cause := some cause }) lane u ∧
    t = u.freeAndOffer off r

/-- A record returns from SENT to the head of its lane's queue with its generation raised, its lane no longer busy, and
meets the lane as it stands (R116, R119, R136). -/
def Part.goesBack (r : Nat) (p t : Part) : Prop :=
  let c := p.call r
  let x := p.lane c.lane
  ∃ u : Part,
    u.Same ((p.modCall r (fun y =>
      { y with state := .queued, generation := (y.generation + 1) % 16, sentCount := 0, answer := .stopped })).modLane
        c.lane (fun y =>
          { y with queue := r :: y.queue.filter (· ≠ r), busy := if y.busy = some r then none else y.busy })) ∧
    (c.expire = true → u.endsShort takeLaneOut r .persistTimeout c.lane t) ∧
    (c.expire = false → x.online = false →
      (c.mode = .home → u.endsShort takeLaneOut r .laneOffline c.lane t) ∧
      (c.mode = .substitute → t = u.moveOn takeLaneOut r) ∧
      (c.mode = .persist → t = u)) ∧
    (c.expire = false → x.online = true → x.stockOut = true →
      (c.mode = .home → u.endsShort takeLaneOut r .laneEmpty c.lane t) ∧
      (c.mode = .substitute → t = u.moveOn takeLaneOut r) ∧
      (c.mode = .persist → t.Same (u.modCall r (fun y =>
        { y with state := .deferred, retry := .running (p.const 2) })))) ∧
    (c.expire = false → x.online = true → x.stockOut = false → t = u)

/-- A lane takes a miss: its miss count rises by 1, up to 3; the third takes an ONLINE lane OFFLINE, raises LANE_OFFLINE
naming what the missed record held, and resolves the lane's queue (R134, R135). -/
def Part.takesMiss (l bay order article : Nat) (p t : Part) : Prop :=
  let x := p.lane l
  (x.misses < 2 ∨ x.online = false → t.Same (p.modLane l (fun y => { y with misses := min 3 (x.misses + 1) }))) ∧
  (2 ≤ x.misses → x.online = true → ∃ u : Part,
    u.Same (p.modLane l (fun y => { y with online := false, misses := 3 })) ∧
    t = (u.raise takeLaneOut
      { kind := .laneOffline, bay := bay, order := order, article := article, lane := l }).resolveQueue takeLaneOut
        false l)

/-- A SENT call has come back undelivered, timed out or with a fault: the record returns to its queue and meets its lane,
then the lane takes a miss (R9, R134, R136, R138). -/
def Part.lostCall (r : Nat) (p t : Part) : Prop :=
  let c := p.call r
  ∃ u : Part, p.goesBack r u ∧ u.takesMiss c.lane c.bay (p.build c.bay).order c.article t

/-- `j` units of a line are called at a position whose article and home lane are resolved (R124): the lowest FREE record is
filled and joins the tail of the lane's queue, DEFERRED for a PERSIST line on an EMPTY lane (log entry 41); with no record
FREE the units stay uncalled and the event is counted. -/
def Part.callTaken (b i j : Nat) (mode : LineMode) (pos art : Nat) (p t : Part) : Prop :=
  let a := p.article art
  let waits : Bool := decide (mode = LineMode.persist) && (p.lane a.homeLane).stockOut
  ((∀ r, r < 512 → (p.call r).state ≠ .free) → t = p.count .callPoolEmpty) ∧
  (∀ r, r < 512 → (p.call r).state = .free → (∀ x, x < r → (p.call x).state ≠ .free) →
    t.Same (((({ p with calls := { p.calls with seq := p.calls.seq + 1 } }.modCall r (fun c =>
      { state := if waits then .deferred else .queued, generation := c.generation, bay := b, line := i, mode := mode,
        member := pos, article := art, nominal := a.nominal, lane := a.homeLane, count := j,
        retry := if waits then .running (p.const 2) else .stopped,
        persist := if mode = LineMode.persist then .running (p.const 1) else .stopped,
        seq := p.calls.seq + 1, lastLane := c.lastLane })).modLane a.homeLane (fun x =>
          { x with queue := x.queue ++ [r] })).modLine b i (fun l =>
            { l with uncalled := l.uncalled - j, outstanding := l.outstanding + j })).modBuild b (fun y =>
              { y with committed := y.committed + j * a.nominal })))

/-- A line of a GATHERING build that waits for a call record: it has uncalled units (R125). -/
def Part.lineWaits (p : Part) (b i : Nat) (o : Order) : Prop :=
  1 ≤ b ∧ b ≤ 64 ∧ (p.build b).state = .gathering ∧ p.orderAt b = some o ∧
    ∃ l, Map.find? o.lines i = some l ∧ 0 < l.uncalled

/-- The offers of a freed record, at most `n` of them, lead from one part to another (R125): each offer is the request of
the line most in need, and the offering ends when the record is taken or no line waits. -/
inductive Part.Offers (r : Nat) : Nat → Part → Part → Prop
  /-- The record has been taken. -/
  | taken (n : Nat) (p : Part) : (p.call r).state ≠ .free → Part.Offers r n p p
  /-- No line waits for a record. -/
  | noneWaits (n : Nat) (p : Part) : (∀ b i o, ¬ p.lineWaits b i o) → Part.Offers r n p p
  /-- The most urgent build's lowest waiting line, the lower bay where the key leaves two builds equal, makes its request,
  and the offering goes on. -/
  | offered (n : Nat) (p t : Part) (b i : Nat) (o : Order) : (p.call r).state = .free → p.lineWaits b i o →
      (∀ b' o', p.orderAt b' = some o' → Map.rising o'.lines = true) →
      (∀ b' i' o', p.lineWaits b' i' o' → moreUrgent o' o = false ∧ (moreUrgent o o' = false → b ≤ b') ∧
        (b' = b → i ≤ i')) →
      Part.Offers r n (p.request takeLaneOut b i) t → Part.Offers r (n + 1) p t

/-- A line carrier is withdrawn from its line and takes the entry `next` (R162): its unit goes back to uncalled, its weight
leaves the build, the cause is counted and noticed, a call is sought for the line, and the completion test is made (log
entry 22: the notice comes before the call). -/
def Part.withdrawn (c b i : Nat) (next : Carrier) (cause : Counter) (kind : NoticeKind) (p t : Part) : Prop :=
  let x := p.carrier c
  let w := match x.net with | some n => n | none => (p.article x.article).nominal
  ∃ u : Part,
    u.Same ((((p.setCarrier c next).modLine b i (fun l =>
      { l with enRoute := l.enRoute - 1, uncalled := l.uncalled + 1 })).modBuild b (fun y =>
        { y with committed := y.committed - w })).count cause) ∧
    t = ((u.raise takeLaneOut
      { kind := kind, bay := b, order := (p.build b).order, article := x.article }).request takeLaneOut b i).completionTest
        takeLaneOut b

/-- A lap of a line carrier at an arch (R163): counted at the lap arch while it is below the lap limit; at the limit the
carrier is withdrawn as SURPLUS, keeping its article and weight. -/
def Part.lapCounted (c b i arch : Nat) (p t : Part) : Prop :=
  let x := p.carrier c
  (arch = 0 ∨ p.tables.lapArch ≠ arch → t = p) ∧
  (arch ≠ 0 → p.tables.lapArch = arch → x.laps < p.const 7 → t.Same (p.setCarrier c { x with laps := x.laps + 1 })) ∧
  (arch ≠ 0 → p.tables.lapArch = arch → p.const 7 ≤ x.laps →
    p.withdrawn c b i { x with state := .surplus, laps := 0 } .lapLimits .lapLimit t)

/-- What follows the weighing of a line carrier at an arch (R161, R169): its lap, and, while it is still EN_ROUTE for its
line, a steering attempt at its bay's steering arch. -/
def Part.carriesOn (c b i arch : Nat) (p t : Part) : Prop :=
  ∃ u : Part, p.lapCounted c b i arch u ∧
    ((u.carrier c).state = .enRoute b i → arch ≠ 0 → (u.bayDir b).arch = arch → t = u.steerAttempt takeLaneOut c b i) ∧
    ((u.carrier c).state ≠ .enRoute b i ∨ arch = 0 ∨ (u.bayDir b).arch ≠ arch → t = u)

/-- A STEERED carrier did not arrive: its record returns to the free list, and the carrier goes back to EN_ROUTE for a
GATHERING build or becomes SURPLUS for a DRAINING one, whose drain is then tested (R9, R104, R164, R171). -/
def Part.steerEnded (c b i r : Nat) (p t : Part) : Prop :=
  let released := { p with pool :=
    { free := r :: p.pool.free, recs := Map.set {} p.pool.recs r {}, armed := true } }.modBuild b
      (fun y => { y with reserved := y.reserved - 1 })
  ((p.build b).state = .gathering → t.Same (released.setCarrier c { p.carrier c with state := .enRoute b i })) ∧
  ((p.build b).state = .draining → ∃ u : Part,
    u.Same (released.setCarrier c { p.carrier c with state := .surplus }) ∧ t = u.drainTest takeLaneOut b)

/-- A line carrier that cannot be held for its line strays (R162, cause STRAY): it becomes SURPLUS with its article and
weight and laps 0, its unit goes back to uncalled, its weight leaves the build, a call is sought for the line, and the
completion test is made. Nothing is counted or noticed. -/
def Part.strays (c b i : Nat) (p t : Part) : Prop :=
  let x := p.carrier c
  let w := match x.net with | some n => n | none => (p.article x.article).nominal
  ∃ u : Part,
    u.Same (((p.setCarrier c { x with state := .surplus, laps := 0 }).modLine b i (fun l =>
      { l with enRoute := l.enRoute - 1, uncalled := l.uncalled + 1 })).modBuild b (fun y =>
        { y with committed := y.committed - w })) ∧
    t = (u.request takeLaneOut b i).completionTest takeLaneOut b

/-- A line carrier comes to rest in its bay on record `r` (R105, R106, R172): the record is filled and appended to the hold
list, and the carrier is HELD. In GATHERING a chilled record counts and starts the dwell timer if it is stopped, the unit
moves from en-route to held, and the completion test is made; in DRAINING the record is marked WANTED and returned. -/
def Part.listsLine (c b i r : Nat) (p t : Part) : Prop :=
  let x := p.carrier c
  let chilled : Bool := (p.article x.article).zone = .chilled
  let filled : HoldRecord :=
    { carrier := c, role := .line i, article := x.article,
      weight := match x.net with | some n => n | none => (p.article x.article).nominal,
      verified := x.net.isSome, chilled := chilled, arrival := p.hall.time }
  let listed := (p.modBuild b (fun z => { z with hold := z.hold ++ [r] })).setCarrier c
    { x with state := .held b r (.line i) }
  ((p.build b).state = .gathering → ∃ u : Part,
    u.Same (((listed.setRec r filled).modBuild b (fun z =>
      if chilled then
        { z with chilledHeld := z.chilledHeld + 1,
                 dwell := if z.dwell = .stopped then .running (p.const 5) else z.dwell }
      else z)).modLine b i (fun l => { l with enRoute := l.enRoute - 1, held := l.held + 1 })) ∧
    t = u.completionTest takeLaneOut b) ∧
  ((p.build b).state = .draining → ∃ u : Part,
    u.Same (listed.setRec r { filled with mark := .wanted }) ∧ t = u.postReturns b)

/-- A record is refused with EMPTY on behalf of a bay (R111): POOL_EMPTY is raised, naming the bay, its order and the
article, when the arming flag is set, and the flag is cleared. -/
def Part.runsDry (b article : Nat) (p t : Part) : Prop :=
  (p.pool.armed = false → t = p) ∧
  (p.pool.armed = true →
    t = Part.raise takeLaneOut { kind := .poolEmpty, bay := b, order := (p.build b).order, article := article }
      { p with pool := { p.pool with armed := false } })

/-- A foreign arrival goes unrecorded (R88): it is counted twice over, FOREIGN is raised, and one RETURN naming the carrier
alone is posted if the normal queue has room; no record, list or carrier changes. -/
def Part.unrecorded (c b : Nat) (p t : Part) : Prop :=
  let noticed := ((p.count .foreignArrivals).count .foreignUnrecorded).raise takeLaneOut
    { kind := .foreign, bay := b, order := (p.build b).order, article := (p.carrier c).article }
  (noticed.ring.normal.length < 48 → t = noticed.posted ⟨.bayCommand, (p.bayDir b).bayNode, returnPayload [c]⟩) ∧
  (48 ≤ noticed.ring.normal.length → t = noticed)

/-- A carrier of no build arrives in a bay (R87, R88, R106, R174). With a place on the spur and a record in the pool it is
recorded as FOREIGN with its prior state, HELD with laps 0, counted and returned; otherwise it goes unrecorded, after the
exhaustion test where the pool is empty. -/
def Part.meetsForeign (c b : Nat) (p t : Part) : Prop :=
  let x := p.carrier c
  let y := p.build b
  let spur := (p.bayDir b).spur
  let prior : Prior := match x.state with | .surplus => .surplus | .reject => .reject | _ => .free
  (∀ r rest, y.hold.length + y.reserved < spur → p.pool.free = r :: rest → ∃ u : Part,
    u.Same (Part.count .foreignArrivals ((({ p with pool := { p.pool with free := rest } }.setRec r
      { carrier := c, role := .foreign, article := x.article, mark := .wanted, arrival := p.hall.time
        }).modBuild b (fun z => { z with hold := z.hold ++ [r], foreigns := z.foreigns + 1 })).setCarrier c
          { x with state := .held b r (.foreign prior), laps := 0 })) ∧
    t = u.postReturns b) ∧
  (spur ≤ y.hold.length + y.reserved → p.unrecorded c b t) ∧
  (y.hold.length + y.reserved < spur → p.pool.free = [] → ∃ u : Part, p.runsDry b x.article u ∧ u.unrecorded c b t)

/-- A walk stops with a cause (R179, R186). -/
def Part.stops (b : Nat) (cause : StopCause) (p t : Part) : Prop :=
  ∃ u : Part,
    u.Same ((p.modBuild b (fun y =>
      { y with state := .finishStopped, stopCause := cause, stepTimer := .stopped, waitTimer := .stopped,
               heldStep := none })).modUseCount (p.styleAt b) (fun n => if p.styleAt b = 0 then n else n - 1)) ∧
    t = u.raise takeLaneOut
      { kind := .finishStop, bay := b, order := (p.build b).order, article := (p.build b).pointer, lane := cause.code }

/-- The build goes to release (R83): a RELEASE with the pack count is posted, or joins the pending list when the normal
queue is full, and the build is CLEARING. -/
def Part.releases (b : Nat) (p t : Part) : Prop :=
  let pack := ((p.build b).hold.filter (fun r => (p.holdRec r).isLine && (p.holdRec r).mark = .none)).length
  let x : Post := ⟨.bayCommand, (p.bayDir b).bayNode, releasePayload pack⟩
  (p.ring.normal.length < 48 → t.Same ((p.posted x).modBuild b (fun y => { y with state := .clearing }))) ∧
  (48 ≤ p.ring.normal.length →
    t.Same (p.modBuild b (fun y => { y with state := .clearing, pending := y.pending ++ [x] })))

/-- The step at the finish pointer of a FINISHING build is executed (R181, R182, R185, R186, R189, R190). -/
def Part.walks (b : Nat) (p t : Part) : Prop :=
  let x := p.build b
  (2048 ≤ x.pointer → p.stops b .badStep t) ∧
  (x.pointer < 2048 →
    (p.step x.pointer = .invalid → p.stops b .badStep t) ∧
    (∀ refuse code parameter, p.step x.pointer = .action refuse code parameter →
      let f : Post := ⟨.bayCommand, (p.bayDir b).bayNode, stepPayload (stepTag x.pointer x.epoch) code parameter⟩
      (p.ring.normal.length < 48 →
        t.Same ((p.posted f).modBuild b (fun y => { y with heldStep := none, stepTimer := .running (p.const 3) }))) ∧
      (48 ≤ p.ring.normal.length → t.Same (p.modBuild b (fun y => { y with heldStep := some f })))) ∧
    (∀ n, p.step x.pointer = .wait n → t.Same (p.modBuild b (fun y => { y with waitTimer := .running n }))) ∧
    (∀ tag, p.step x.pointer = .note tag →
      t = ((p.raise takeLaneOut { kind := .stepNote, bay := b, order := x.order, article := tag }).modBuild b
        (fun y => { y with pointer := y.pointer + 1 })).executeStep takeLaneOut b) ∧
    (p.step x.pointer = .finish → ∃ u : Part,
      u.Same ((p.modBuild b (fun y => { y with stepTimer := .stopped, waitTimer := .stopped, heldStep := none
        })).modUseCount (p.styleAt b) (fun n => if p.styleAt b = 0 then n else n - 1)) ∧
      u.releases b t))

/-- What a request's own part leaves, with the reply, whose entry stands at the tail the normal queue had, filled in
(R19; log entry 16). -/
def Part.withReply (p before : Part) (pkt : Packet) (status : Status) (data : List Byte) : Part :=
  p.modNormal (fun q => q.set before.ring.normal.length (replyTo pkt status data))

/-- The lowest and highest index of tables 1 to 14 for a TABLE_READ (Table 2-1, R28). -/
def indexRanges : List (Nat × Nat) :=
  [(0, 8191), (1, 127), (1, 255), (1, 255), (1, 64), (0, 9), (0, 3), (0, 31), (0, 0), (1, 63), (0, 511), (1, 16), (1, 4),
    (1, 2)]

/-! ### What only some commands change -/

/-- The row is one that may change the straps and the RESETN level (R3, R23). -/
def setsStraps (i : Instr) : Bool := match i with | .powerOnReset _ => true | _ => false

/-- The row is one that may change a Hall Table or the manager table (chapter 2, R23). -/
def setsTables (i : Instr) : Bool :=
  match i with
  | .powerOnReset _ => true
  | .tableWrite _ => true
  | _ => false

/-- The row is one that may change the part mode (R21 to R24). -/
def setsMode (i : Instr) : Bool :=
  match i with
  | .powerOnReset _ => true
  | .mode _ => true
  | .restart _ => true
  | _ => false

/-- The row is one that may change the hall time (R15, R16, R23). -/
def setsHallTime (i : Instr) : Bool :=
  match i with
  | .powerOnReset _ => true
  | .tick _ => true
  | _ => false

end Sys2Proof.Machine
end

