-- ==== Sys2Proof/Certificates/Slice0/Obligations.lean ====
section
/-! DEFINITION. The statements for the provers, in the order of OBLIGATIONS.json. -/

open Sys2Proof Sys2Proof.Machine

/-! ### The machine -/

/-- One step takes the command at the front of the queue and leaves the rest waiting; with no command waiting the block
idles (the queue and the idling are the model's choice, log entry 1). -/
def Obligations.StepTakesTheFrontCommand : Prop :=
  (∀ (s : State) (c : Instr) (rest : List Instr), s.pending = c :: rest →
    step s = exec c { s with pending := rest }) ∧
  (∀ s : State, s.pending = [] → step s = .next s)

/-- What a power-on reset leaves (R23 and the reset rule of each block), with the straps just read; RESETN low holds the
part. The slot standing in the port is the model's own (log entries 3, 9 and 10). -/
def Obligations.PowerOnResetLeavesPowerOnValues : Prop :=
  (∀ (s : State) (straps : BitVec 10), ∃ t, exec (.powerOnReset (.ended straps)) s = .next t ∧
    t.pending = s.pending ∧ t.part.ring = { straps := straps, slot := s.part.ring.slot } ∧
    t.part.ring.urgent = [] ∧ t.part.ring.normal = [] ∧ t.part.ring.resetHeld = false ∧
    (∀ i, t.part.counter i = 0) ∧ t.part.hall.time = 0 ∧ t.part.hall.valid = false ∧
    t.part.mode = .config ∧ t.part.manager 1 = 0 ∧ t.part.manager 2 = 0 ∧
    t.part.book.orders = [] ∧ t.part.book.seq = 0 ∧ t.part.calls.seq = 0 ∧
    (∀ b, (t.part.build b).state = .outOfService ∧ t.part.build b = {}) ∧ (∀ c, t.part.carrier c = {}) ∧
    t.part.pool.free = List.range' 1 1023 ∧ t.part.pool.armed = true ∧ (∀ r, t.part.holdRec r = {}) ∧
    (∀ r, (t.part.call r).state = .free ∧ (t.part.call r).generation = 0 ∧ (t.part.call r).lastLane = 0 ∧
      t.part.call r = {}) ∧
    (∀ l, t.part.lane l = {}) ∧ (∀ d, t.part.noticeQueue d = {}) ∧ t.part.cal = {} ∧
    t.part.tables = {} ∧ (∀ y, t.part.useCount y = 0)) ∧
  (∀ s : State, exec (.powerOnReset .held) s =
    .next { s with part := { s.part with ring := { s.part.ring with resetHeld := true } } })

/-- The insert queues, the counters, the Order Book and the notice queues stay within their bounds across every step, from
every part within them. -/
def Obligations.EveryStepKeepsTheBounds : Prop :=
  ∀ s t : State, s.part.Bounded → step s = .next t → t.part.Bounded

/-- The part after a power-on reset is within the bounds. -/
def Obligations.ResetIsWithinTheBounds : Prop :=
  State.reset.part.Bounded ∧ ∀ straps, (Part.powerOn straps).Bounded

/-- The straps and the RESETN level, the Hall Tables with the manager table, the part mode and the hall time change at no
command but those whose rules say so. -/
def Obligations.SettingsChangeOnlyAtTheirCommands : Prop :=
  ∀ (s t : State) (c : Instr) (rest : List Instr), s.pending = c :: rest → step s = .next t →
    (setsStraps c = false →
      t.part.ring.straps = s.part.ring.straps ∧ t.part.ring.resetHeld = s.part.ring.resetHeld) ∧
    (setsTables c = false → t.part.tables = s.part.tables) ∧
    (setsMode c = false → t.part.mode = s.part.mode) ∧
    (setsHallTime c = false → t.part.hall = s.part.hall)

/-- The hall time never falls while it is valid, and stays valid, short of a power-on reset. -/
def Obligations.TheHallTimeNeverFalls : Prop :=
  ∀ (s t : State) (c : Instr) (rest : List Instr), s.pending = c :: rest → (∀ e, c ≠ .powerOnReset e) →
    s.part.hall.valid = true → step s = .next t →
    t.part.hall.valid = true ∧ s.part.hall.time.toNat ≤ t.part.hall.time.toNat

/-! ### Slots and frames -/

/-- The check word: a frame is sound when its sixteen words sum to 0, a frame the part writes and a frame it takes are
sound, the Empty slot it writes is 32 bytes of 0, and an unsound slot, Empty ones included, is a damaged frame. The 32
bytes of a slot and its fields determine each other. -/
def Obligations.FramesSpellTheirBytesAndAreSound : Prop :=
  ((∀ f : Frame, f.packet.payload.length = 24 → (f.sound = true ↔ wordSum f.bytes = 0)) ∧
   (∀ (kind : Byte) (pkt : Packet), (pkt.seal kind).sound = true ∧ (pkt.seal kind).kind = kind ∧
     (pkt.seal kind).packet = pkt) ∧
   (∀ f : Frame, f.sound = true → f.packet.taken = false →
     f.take.sound = true ∧ f.take.packet.taken = true ∧ f.take.packet.mark = f.packet.mark + 1 ∧
     f.take.check = f.check - 1 ∧ f.take.kind = f.kind ∧ f.take.packet.dst = f.packet.dst ∧
     f.take.packet.src = f.packet.src ∧ f.take.packet.payload = f.packet.payload) ∧
   emptyFrame.sound = true ∧ emptyFrame.bytes = List.replicate 32 0 ∧
   (∀ (node : Half) (f : Frame), f.sound = false → commandOf node f = .damagedFrame f)) ∧
  ((∀ f : Frame, f.packet.payload.length = 24 → f.bytes.length = 32 ∧ Frame.ofBytes f.bytes = some f) ∧
   (∀ l : List Byte, l.length = 32 → ∃ f, Frame.ofBytes l = some f ∧ f.packet.payload.length = 24 ∧ f.bytes = l))

/-- Every command that is a slot reaching a part with a node number is the command that its slot spells. -/
def Obligations.SlotsSpellTheirCommands : Prop :=
  ∀ (node : Half) (i : Instr) (f : Frame), i.wf = true → i.reaches node = true → i.slot = some f →
    commandOf node f = i

/-- No slot stops the part: whatever 32 bytes reach it, the command they spell runs to a next state. -/
def Obligations.EverySlotRuns : Prop :=
  ∀ (s : State) (f : Frame), ∃ t, exec (commandOf s.part.node f) s = .next t ∧ t.pending = s.pending

/-- While RESETN is low every slot passes unchanged and unchecked, and nothing else happens. A pure forwarder passes
every sound slot unchanged, replaces damaged frames by Empty and counts them (that it counts them is log entry 31,
DEDUCED), and inserts nothing. -/
def Obligations.InertPartsOnlyForward : Prop :=
  (∀ (s : State) (i : Instr) (f : Frame), s.part.ring.resetHeld = true → i.wf = true → i.slot = some f →
     exec i s = .next { s with part := s.part.putSlot f }) ∧
  (∀ s : State, s.part.ring.resetHeld = false → (s.part.ring.straps = 0 ∨ s.part.ring.straps = 1023) →
     (∀ (i : Instr) (f : Frame), i.wf = true → i.slot = some f →
       exec i s = .next { s with part :=
         (if f.sound then s.part.putSlot f else (s.part.putSlot emptyFrame).count .damaged) }) ∧
     exec .emptySlotFill s = .next s)

/-- A damaged frame is replaced by Empty and counted, nothing of it is read, and its slot may be filled. -/
def Obligations.DamagedFramesBecomeEmpty : Prop :=
  (∀ (s : State) (f : Frame), f.sound = false → s.part.ring.resetHeld = false →
    exec (.damagedFrame f) s = .next { s with part := { s.part with
      ring := { s.part.ring with slot := emptyFrame },
      counters := Map.set 0 s.part.counters 0 (min 65535 (s.part.counter 0 + 1)) } }) ∧
  (∀ (s t : State) (f : Frame) (x : Post) (rest : List Post), f.sound = false → s.part.listening = true →
    s.part.ring.urgent = x :: rest → exec (.damagedFrame f) s = .next t →
    exec .emptySlotFill t = .next { t with part := { t.part with
      ring := { t.part.ring with slot := t.part.launch x, urgent := rest } } })

/-- The slot arbiter: an Empty slot takes the head of the urgent queue, or else of the normal queue, or goes on Empty;
one slot carries one frame, and a slot that is not Empty is left alone. That a normal entry has left is noted for
NORMAL_ENTRY_LEFT (log entry 5). A slot that no other row is for goes on unchanged; one addressed to the part by
another node, of a kind the part does not take, is left untaken and counted. -/
def Obligations.EmptySlotsAreFilledAndOthersForwarded : Prop :=
  (∀ s : State, s.part.listening = true →
     (s.part.ring.slot.kind = 0 → ∀ x rest, s.part.ring.urgent = x :: rest →
       exec .emptySlotFill s = .next { s with part := { s.part with
         ring := { s.part.ring with slot := s.part.launch x, urgent := rest } } }) ∧
     (s.part.ring.slot.kind = 0 → s.part.ring.urgent = [] → ∀ x rest, s.part.ring.normal = x :: rest →
       exec .emptySlotFill s = .next { s with part := { s.part with
         ring := { s.part.ring with slot := s.part.launch x, normal := rest, left := s.part.ring.left + 1 } } }) ∧
     (s.part.ring.slot.kind = 0 → s.part.ring.urgent = [] → s.part.ring.normal = [] →
       exec .emptySlotFill s = .next s) ∧
     (s.part.ring.slot.kind ≠ 0 → exec .emptySlotFill s = .next s) ∧
     (∀ x, (s.part.launch x).sound = true ∧ (s.part.launch x).kind = x.kind.kind.code ∧
       (s.part.launch x).packet = ⟨0, BitVec.ofNat 16 x.dst, s.part.node, x.payload⟩)) ∧
  (∀ (s : State) (f : Frame), s.part.listening = true → f.sound = true → f.passing s.part.node = true →
     exec (.slotForward f) s = .next { s with part :=
       (if (Kind.ofCode f.kind).isSome ∧ f.packet.dst = s.part.node ∧ f.packet.taken = false then
         (s.part.putSlot f).count .untaken
       else s.part.putSlot f) })

/-- What the part does not take of the kinds it receives: a frame not addressed to it, or already taken, goes on
unchanged and uncounted; a broadcast kind addressed to the part, and an Answer that fails its checks, are left untaken
and counted. None of them reaches a block. The part modes gate what is handed on: in CONFIG an Answer or Bay Report is
taken, discarded and counted as unmatched, and a Sighting or Pitch is only forwarded; in PAUSED a Pitch is only
forwarded. -/
def Obligations.FramesNotHandedOnReachNoBlock : Prop :=
  ((∀ (s : State) (i : Instr) (k : Kind) (pkt : Packet), s.part.listening = true → i.wf = true →
     received i = some (k, pkt) → (isBroadcast k = true → pkt.dst ≠ 1023) →
     (pkt.dst ≠ s.part.node ∨ pkt.taken = true) →
     exec i s = .next { s with part := s.part.passOn k pkt }) ∧
   (∀ (s : State) (pkt : Packet), s.part.receives pkt →
     (∀ i k, received i = some (k, pkt) → isBroadcast k = true →
       exec i s = .next { s with part := (s.part.passOn k pkt).count .untaken }) ∧
     (answerChecks pkt = false →
       exec (.answer pkt) s = .next { s with part := (s.part.passOn .answer pkt).count .untaken }))) ∧
  ((∀ (s : State) (i : Instr) (k : Kind) (pkt : Packet), i.wf = true → received i = some (k, pkt) →
     s.part.mode = .config → s.part.receives pkt → (k = .bayReport ∨ (k = .answer ∧ answerChecks pkt = true)) →
     exec i s = .next { s with part := (s.part.takeOn k pkt).count .unmatched }) ∧
   (∀ (s : State) (pkt : Packet), s.part.hears pkt → s.part.mode = .config →
     exec (.sighting pkt) s = .next { s with part := s.part.passOn .sighting pkt }) ∧
   (∀ (s : State) (pkt : Packet), s.part.hears pkt → s.part.mode ≠ .run →
     exec (.pitch pkt) s = .next { s with part := s.part.passOn .pitch pkt }))

/-! ### The part's own frames come round -/

/-- An undelivered Notice or Admin Reply is dropped: beyond the counter of its kind nothing changes. -/
def Obligations.UndeliveredNoticesAndRepliesAreDropped : Prop :=
  ∀ (s : State) (pkt : Packet), s.part.ownReturned pkt →
    exec (.noticeUndelivered pkt) s = .next { s with part := s.part.stripCounted .notice } ∧
    exec (.adminReplyUndelivered pkt) s = .next { s with part := s.part.stripCounted .adminReply }

/-- A delivered own frame is stripped, and nothing else happens. An undelivered Bay Command: a RETURN naming a carrier
still RETURNING for the bay, or the RELEASE of a bay in CLEARING, is posted again unchanged, or joins the bay's
pending list when the queue is full; otherwise, and for a STEP that is not awaited, the return is counted only. -/
def Obligations.OwnFramesAreStrippedOrReposted : Prop :=
  (∀ (s : State) (kind : SentKind) (pkt : Packet), s.part.listening = true → pkt.src = s.part.node →
     (pkt.dst = 1023 ∨ pkt.taken = true) →
     exec (.ownFrameStrip kind pkt) s = .next { s with part := s.part.putSlot emptyFrame }) ∧
  (∀ (s : State) (pkt : Packet) (b : Nat), s.part.ownReturned pkt → s.part.bayOfNode pkt.dst.toNat = some b →
     ((pkt.u8 6 = 2 ∧ ∃ c, c ∈ returnIds pkt.payload ∧ s.part.isReturning b c = true) ∨
       (pkt.u8 6 = 3 ∧ (s.part.build b).state = .clearing) →
       exec (.bayCommandUndelivered pkt) s = .next { s with part :=
         (if s.part.ring.normal.length < 48 then
           (s.part.stripCounted .bayCommand).posted ⟨.bayCommand, pkt.dst.toNat, pkt.payload⟩
         else
           (s.part.stripCounted .bayCommand).modBuild b (fun x =>
             { x with pending := x.pending ++ [⟨.bayCommand, pkt.dst.toNat, pkt.payload⟩] })) }) ∧
     ((pkt.u8 6 = 2 ∧ ∀ c ∈ returnIds pkt.payload, s.part.isReturning b c = false) ∨
       (pkt.u8 6 = 3 ∧ (s.part.build b).state ≠ .clearing) ∨
       (pkt.u8 6 = 1 ∧ s.part.stepAwaited b (pkt.u16 7) = false) →
       exec (.bayCommandUndelivered pkt) s = .next { s with part := s.part.stripCounted .bayCommand }))

/-! ### Waiting frames -/

/-- A report that a normal entry has left: with no report to take nothing changes; otherwise the bays are told in ascending
number, each first for its Build Engine and then for its held STEP, and after them the notice destinations in ascending
number. The Build Engine posts the pending list from its head, dropping a RETURN none of whose carriers is still RETURNING
for the bay, and stops at the first refusal; when the list is empty it posts RETURN frames for its WANTED records. A held
STEP is posted again, and its step timer starts; a WAITING destination makes a post attempt. The reports are the model's
own (log entry 5). -/
def Obligations.LeftEntriesLetHeldFramesPost : Prop :=
  (∀ s : State, s.part.ring.resetHeld = false →
    (s.part.ring.left = 0 → exec .normalEntryLeft s = .next s) ∧
    ∀ n, s.part.ring.left = n + 1 →
      exec .normalEntryLeft s = .next { s with part :=
        ([1, 2, 3, 4].foldl (fun q d => q.retryNotice d)
          ((List.range' 1 64).foldl (fun q b => (q.retryBuild b).retryStep b)
            { s.part with ring := { s.part.ring with left := n } })) }) ∧
  (∀ (p : Part) (b : Nat) (front rest : List Post), (p.build b).pending = front ++ rest →
    (∀ x ∈ (p.build b).pending, x.kind = .bayCommand) →
    let live := fun x : Post => decide (x.payload.headD 0 ≠ 2) || (returnIds x.payload).any (fun c => p.isReturning b c)
    let posts := front.filter live
    (rest = [] → p.ring.normal.length + posts.length ≤ 48 → ∃ u : Part,
      u.Same ((p.modNormal (fun q => q ++ posts)).modBuild b (fun y => { y with pending := [] })) ∧
      p.retryBuild b = u.postReturns b) ∧
    (∀ x after, rest = x :: after → live x = true → p.ring.normal.length + posts.length = 48 →
      (p.retryBuild b).Same ((p.modNormal (fun q => q ++ posts)).modBuild b (fun y => { y with pending := rest })))) ∧
  (∀ (p : Part) (b : Nat),
    ((p.build b).heldStep = none → p.retryStep b = p) ∧
    (∀ x, (p.build b).heldStep = some x → x.kind = .bayCommand →
      (p.ring.normal.length < 48 → (p.retryStep b).Same ((p.posted x).modBuild b (fun y =>
        { y with heldStep := none, stepTimer := .running (p.const 3) }))) ∧
      (48 ≤ p.ring.normal.length → (p.retryStep b).Same p))) ∧
  (∀ (p : Part) (d : Nat),
    ((p.noticeQueue d).state ≠ .waiting → p.retryNotice d = p) ∧
    ((p.noticeQueue d).state = .waiting → p.triesToPost d (p.retryNotice d)))

/-- RETURN frames name the WANTED records of a bay's hold list, six to a frame in its order, as many frames as the normal
queue has entries for: the records they name become POSTED, and each carrier held for such a record is RETURNING; the
others stay WANTED (R84, R108, R155). -/
def Obligations.WantedRecordsAreReturned : Prop :=
  ∀ (p : Part) (b : Nat),
    let wanted := (p.build b).hold.filter (fun r => decide ((p.holdRec r).mark = .wanted))
    let frames := min (48 - p.ring.normal.length) ((wanted.length + 5) / 6)
    let sent := wanted.take (6 * frames)
    let frame : Nat → Post := fun k =>
      ⟨.bayCommand, (p.bayDir b).bayNode,
        returnPayload (((wanted.drop (6 * k)).take 6).map (fun r => (p.holdRec r).carrier))⟩
    wanted.Nodup → ∃ t : Part, p.postReturns b = t ∧
      t = { p with ring := { p.ring with normal := p.ring.normal ++ (List.range frames).map frame },
                   pool := { p.pool with recs := t.pool.recs }, carriers := t.carriers } ∧
      (∀ r, t.holdRec r = if r ∈ sent then { p.holdRec r with mark := .posted } else p.holdRec r) ∧
      (∀ c, t.carrier c =
        match (p.carrier c).state with
        | .held a r role =>
          if a = b ∧ r ∈ sent ∧ (p.holdRec r).carrier = c then
            { p.carrier c with state := .returning b r role }
          else p.carrier c
        | _ => p.carrier c)

/-! ### Admin Requests -/

/-- What comes before a request's own part: a full normal queue leaves the request untaken and counted; while a manager
entry is set, a request from a node in neither entry is answered NOT_MANAGER; and a code that is not one of Table 1-3 is
answered BAD_REQUEST, with its code and tag copied. None of them changes anything else. -/
def Obligations.RequestsRefusedBeforeTheirOwnPart : Prop :=
  (∀ (s : State) (i : Instr) (pkt : Packet), i.wf = true → received i = some (.adminRequest, pkt) →
    s.part.receives pkt →
    (¬ s.part.ring.normal.length < 48 →
      exec i s = .next { s with part := (s.part.passOn .adminRequest pkt).count .deferred }) ∧
    (s.part.ring.normal.length < 48 → (s.part.manager 1 ≠ 0 ∨ s.part.manager 2 ≠ 0) →
      (∀ m, m = 1 ∨ m = 2 → s.part.manager m = 0 ∨ s.part.manager m ≠ pkt.src.toNat) →
      exec i s = .next { s with part := s.part.replied pkt .notManager [] })) ∧
  (∀ (s : State) (pkt : Packet), (∀ c : RequestCode, pkt.byte 6 ≠ c.code) → s.part.receives pkt →
    s.part.ring.normal.length < 48 → s.part.admits pkt.src.toNat = true →
    exec (.badRequest pkt) s = .next { s with part := s.part.replied pkt .badRequest [] })

/-- COUNTERS_READ: the index check, and the reply of nine counters from the first index, or of those that remain. -/
def Obligations.CountersReadReturnsTheCounters : Prop :=
  ∀ (s : State) (pkt : Packet), s.part.receivesRequest .countersRead pkt →
    (24 < pkt.u8 8 → exec (.countersRead pkt) s = .next { s with part := s.part.replied pkt .badIndex [] }) ∧
    (pkt.u8 8 ≤ 24 → exec (.countersRead pkt) s = .next { s with part := (s.part.replied pkt .ok
      (b8 (pkt.u8 8) ++ b8 (min 9 (25 - pkt.u8 8)) ++
        ((List.range' (pkt.u8 8) (min 9 (25 - pkt.u8 8))).map (fun i => b16 (s.part.counter i))).flatten)) })

/-- The other reads: TABLE_READ, ORDER_READ and BUILD_READ make their checks in order, reply what stands when they are taken,
and change nothing. TABLE_READ checks its index against the ranges of Table 2-1 and replies the identifier, the index and the
entry in the layout of Tables 2-2 to 2-4, with a lane's dynamic state (R37), a bay's hold, blocked and service flags (R41)
and a style's use count (R46) as they stand. The order replies have the layouts of Table 3-1 and the build replies those of
Table 5-2. -/
def Obligations.ReadsReplyAndChangeNothing : Prop :=
  let flag : Bool → Nat := fun f => if f then 1 else 0
  let left : Timer → Nat := fun x => match x with | .running n => n | _ => 0
  let header : Order → List Byte := fun o =>
    b8 o.state.code ++ b8 (match o.state with | .bound b => b | _ => 0) ++ b8 o.priority ++ b8 o.style ++
      b8 o.declared ++ b8 o.lines.length ++ b8 (flag o.tolerant) ++ b16 o.ceiling ++ b32 o.due.toNat ++ b32 o.seq.toNat ++
      b16 ((List.range 16).map (fun i => if (Map.find? o.lines i).isSome then 2 ^ i else 0)).sum
  let line : Nat → Line → List Byte := fun i l =>
    b8 i ++ b16 l.article ++ b8 l.quantity ++
      b8 (match l.mode with | .home => 0 | .persist => 1 | .substitute => 2) ++ b8 l.member ++ b8 l.held ++ b8 l.enRoute ++
      b8 l.outstanding ++ b8 l.uncalled ++ b8 l.short ++
      b8 (match l.cause with
        | none => 0
        | some .laneEmpty => 1
        | some .persistTimeout => 2
        | some .weight => 3
        | some .noSubstitute => 4
        | some .noLane => 5
        | some .invalidArticle => 6
        | some .laneOffline => 7)
  let zone : Zone → Nat := fun z => match z with | .ambient => 0 | .chilled => 1 | .fragile => 2 | .bottle => 3
  let step : Step → List Byte := fun x =>
    match x with
    | .invalid => [0, 0, 0, 0]
    | .action goesOn code parameter => b8 (if goesOn then 2 else 1) ++ b8 code ++ b16 parameter
    | .wait ticks => b8 3 ++ [0] ++ b16 ticks
    | .note tag => b8 4 ++ [0] ++ b16 tag
    | .finish => [5, 0, 0, 0]
  let article : Article → List Byte := fun a =>
    b8 (flag a.valid) ++ b8 (zone a.zone) ++ b16 a.nominal ++ b8 a.tolerance ++ b8 a.homeLane ++ b8 a.group
  let lane : LaneDir → Lane → List Byte := fun d x =>
    b16 d.node ++ b8 (zone d.zone) ++ b8 d.burst ++ b8 (flag d.configured) ++ b8 (flag x.online) ++ b8 (flag x.stockOut) ++
      b8 x.misses ++ b8 (flag x.busy.isSome) ++ b16 x.queue.length
  let bay : BayDir → Build → List Byte := fun d y =>
    b16 d.diverter ++ b16 d.bayNode ++ b8 d.arch ++ b8 d.spur ++ [d.zones] ++ b8 (flag y.holdFlag) ++ b8 (flag y.blocked) ++
      b8 (if y.state = .outOfService then 0 else 1)
  let route : Routing → List Byte := fun e =>
    b8 e.dest ++ b8 (match e.action with | .none => 0 | .holdBay => 1 | .laneOffline => 2) ++ b16 e.tags
  let entry : Part → Nat → Nat → List Byte := fun p k i =>
    match k with
    | 1 => article (p.article i)
    | 2 => (p.group i ++ List.replicate (8 - (p.group i).length) 0).flatMap b16
    | 3 => lane (p.laneDir i) (p.lane i)
    | 4 => b8 (flag (p.scale i)) ++ b8 (if p.tables.lapArch = i then 1 else 0)
    | 5 => bay (p.bayDir i) (p.build i)
    | 6 => b16 (p.const i)
    | 7 => b16 (p.tare i)
    | 8 => (List.range 16).flatMap (fun j => b8 (p.calendarEntry (16 * i + j)))
    | 9 => p.tables.weights.flatMap b8
    | 10 => b16 (p.styleStart i) ++ b8 (p.useCount i)
    | 11 => (List.range 4).flatMap (fun j => step (p.step (4 * i + j)))
    | 12 => route (Map.get {} p.tables.routing i)
    | 13 => b16 (p.destination i).node ++ b8 (p.destination i).pacing
    | _ => b16 (p.manager i)
  let context : Build → List Byte := fun y =>
    b8 y.state.code ++ b32 y.order ++ b8 y.epoch ++ b32 y.committed ++ b8 y.hold.length ++ b8 y.reserved ++ b8 y.foreigns ++
      b8 y.chilledHeld ++ b8 y.orphans ++ b8 y.chillCount ++ b8 y.pending.length ++
      b8 (flag y.holdFlag + 2 * flag y.blocked + 4 * flag y.pendingOut +
        8 * (match y.dwell with | .running _ => 1 | _ => 0)) ++ b16 (left y.dwell)
  let finish : Part → Nat → List Byte := fun p b =>
    let y := p.build b
    b8 (match p.order? y.order with | some o => o.style | none => 0) ++ b16 y.pointer ++
      b8 (match y.stopCause with | .none => 0 | .refused => 1 | .fault => 2 | .timeout => 3 | .badStep => 4) ++
      b8 (left y.stepTimer) ++ b16 (left y.waitTimer) ++ b8 (flag y.heldStep.isSome)
  let record : Part → Nat → Nat → List Byte := fun p b i =>
    let list := (p.build b).hold
    let x := p.holdRec (list.getD i 0)
    b8 i ++ b16 (list.getD i 0) ++ b16 x.carrier ++ b8 (match x.role with | .line _ => 0 | .foreign => 1) ++
      b8 (match x.role with | .line j => j | .foreign => 0) ++ b16 x.article ++ b16 x.weight ++
      b8 (flag x.verified + 2 * flag x.chilled + 4 * flag x.chillExpired) ++
      b8 (match x.mark with | .none => 0 | .wanted => 1 | .posted => 2) ++ b32 x.arrival.toNat ++
      b16 (list.getD (i + 1) 0)
  let pool : Part → List Byte := fun p =>
    b16 p.pool.free.length ++ b16 ((List.range' 1 64).map (fun b => (p.build b).reserved)).sum ++
      b16 ((List.range' 1 64).map (fun b => (p.build b).hold.length)).sum ++ b16 (p.pool.free.headD 0) ++
      b8 (flag p.pool.armed)
  (∀ (s : State) (pkt : Packet), s.part.receivesRequest .tableRead pkt →
    let k := pkt.u8 8
    let i := pkt.u16 9
    (k = 0 ∨ 14 < k → exec (.tableRead pkt) s = .next { s with part := s.part.replied pkt .badTable [] }) ∧
    (∀ lo hi, k ≠ 0 → indexRanges[k - 1]? = some (lo, hi) →
      (i < lo ∨ hi < i → exec (.tableRead pkt) s = .next { s with part := s.part.replied pkt .badIndex [] }) ∧
      (lo ≤ i → i ≤ hi → exec (.tableRead pkt) s = .next { s with part :=
        (s.part.replied pkt .ok (b8 k ++ b16 i ++ entry s.part k i)) }))) ∧
  (∀ (s : State) (pkt : Packet), s.part.receivesRequest .orderRead pkt →
    (s.part.order? (pkt.u32 8) = none →
      exec (.orderRead pkt) s = .next { s with part := s.part.replied pkt .unknownOrder [] }) ∧
    (∀ o, s.part.order? (pkt.u32 8) = some o →
      (pkt.u8 12 = 255 → exec (.orderRead pkt) s = .next { s with part := s.part.replied pkt .ok (header o) }) ∧
      (pkt.u8 12 ≠ 255 → (15 < pkt.u8 12 ∨ o.declared ≤ pkt.u8 12 ∨ Map.find? o.lines (pkt.u8 12) = none) →
        exec (.orderRead pkt) s = .next { s with part := s.part.replied pkt .badIndex [] }) ∧
      (∀ l, pkt.u8 12 ≤ 15 → pkt.u8 12 < o.declared → Map.find? o.lines (pkt.u8 12) = some l →
        exec (.orderRead pkt) s = .next { s with part := s.part.replied pkt .ok (line (pkt.u8 12) l) }))) ∧
  (∀ (s : State) (pkt : Packet), s.part.receivesRequest .buildRead pkt →
    ((64 < pkt.u8 8 ∨ (pkt.u8 8 = 0 ∧ pkt.u8 9 ≠ 255) ∨
      (pkt.u8 9 < 254 ∧ (31 < pkt.u8 9 ∨ (s.part.build (pkt.u8 8)).hold.length ≤ pkt.u8 9))) →
      exec (.buildRead pkt) s = .next { s with part := s.part.replied pkt .badIndex [] }) ∧
    (pkt.u8 8 = 0 → pkt.u8 9 = 255 →
      exec (.buildRead pkt) s = .next { s with part := s.part.replied pkt .ok (pool s.part) }) ∧
    (1 ≤ pkt.u8 8 → pkt.u8 8 ≤ 64 →
      (pkt.u8 9 = 255 →
        exec (.buildRead pkt) s = .next { s with part :=
          (s.part.replied pkt .ok (context (s.part.build (pkt.u8 8)))) }) ∧
      (pkt.u8 9 = 254 →
        exec (.buildRead pkt) s = .next { s with part := s.part.replied pkt .ok (finish s.part (pkt.u8 8)) }) ∧
      (pkt.u8 9 ≤ 31 → pkt.u8 9 < (s.part.build (pkt.u8 8)).hold.length →
        exec (.buildRead pkt) s = .next { s with part :=
          (s.part.replied pkt .ok (record s.part (pkt.u8 8) (pkt.u8 9))) })))

/-- MODE: its checks; with PAUSED the mode alone changes; RUN is a binding event that all candidate bays meet in ascending
number; CONFIG makes every IDLE build give up its FOREIGN records, bay by bay and in hold-list order (log entry 24): each
carrier takes its prior state, each record returns to the head of the free list, and the bay's foreign count and pending
list are emptied (R22, R177). -/
def Obligations.ModeRequestsChangeTheMode : Prop :=
  ∀ (s : State) (pkt : Packet), s.part.receivesRequest .mode pkt →
    (2 < pkt.u8 8 → exec (.mode pkt) s = .next { s with part := s.part.replied pkt .badValue [] }) ∧
    (Mode.ofCode (pkt.u8 8) = some s.part.mode →
      exec (.mode pkt) s = .next { s with part := s.part.replied pkt .ok [] }) ∧
    (pkt.u8 8 = 2 → s.part.mode ≠ .paused →
      exec (.mode pkt) s = .next { s with part := { s.part.replied pkt .ok [] with mode := .paused } }) ∧
    (pkt.u8 8 = 0 → s.part.mode ≠ .config →
      (∃ b, 1 ≤ b ∧ b ≤ 64 ∧ (s.part.build b).state ≠ .idle ∧ (s.part.build b).state ≠ .outOfService) →
      exec (.mode pkt) s = .next { s with part := s.part.replied pkt .badState [] }) ∧
    (pkt.u8 8 = 0 → s.part.mode ≠ .config →
      (∀ b, 1 ≤ b → b ≤ 64 → (s.part.build b).state = .idle ∨ (s.part.build b).state = .outOfService) →
      let given := (List.range' 1 64).flatMap (fun b =>
        if (s.part.build b).state = .idle then (s.part.build b).hold.filter (fun r => !(s.part.holdRec r).isLine) else [])
      let tray := fun r => (s.part.holdRec r).carrier
      given.Nodup → (given.map tray).Nodup → ∃ t : Part, exec (.mode pkt) s = .next { s with part := t } ∧
        t = { s.part.replied pkt .ok [] with
          mode := .config, builds := t.builds, carriers := t.carriers,
          pool := { free := given.reverse ++ s.part.pool.free, recs := t.pool.recs,
                    armed := s.part.pool.armed || decide (given ≠ []) } } ∧
        (∀ b, t.build b =
          if 1 ≤ b ∧ b ≤ 64 ∧ (s.part.build b).state = .idle then
            { s.part.build b with
              hold := (s.part.build b).hold.filter (fun r => !decide (r ∈ given)), foreigns := 0, pending := [] }
          else s.part.build b) ∧
        (∀ r, t.holdRec r = if r ∈ given then {} else s.part.holdRec r) ∧
        (∀ c, c ∉ given.map tray → t.carrier c = s.part.carrier c) ∧
        (∀ r b r' prior, r ∈ given →
          (s.part.carrier (tray r)).state = .held b r' (.foreign prior) ∨
            (s.part.carrier (tray r)).state = .returning b r' (.foreign prior) →
          t.carrier (tray r) =
            match prior with
            | .free => {}
            | .surplus =>
              { state := .surplus, article := (s.part.carrier (tray r)).article, net := (s.part.carrier (tray r)).net }
            | .reject =>
              { state := .reject, article := (s.part.carrier (tray r)).article, net := (s.part.carrier (tray r)).net })) ∧
    (pkt.u8 8 = 1 → s.part.mode ≠ .run →
      exec (.mode pkt) s = .next { s with part :=
        ((Part.bindingEvent takeLaneOut (List.range' 1 64)
          { s.part.replied pkt .ok [] with mode := .run }).withReply s.part pkt .ok []) })

/-- A line restart: what it empties, what it keeps, and its own reply left in the normal queue. -/
def Obligations.RestartResetsTheBlocks : Prop :=
  ∀ (s : State) (pkt : Packet), s.part.receivesRequest .restart pkt → ∃ t, exec (.restart pkt) s = .next t ∧
    t.pending = s.pending ∧ t.part.ring.urgent = [] ∧
    t.part.ring.normal = [replyTo pkt .ok []] ∧
    t.part.ring.straps = s.part.ring.straps ∧ t.part.tables = s.part.tables ∧ t.part.hall = s.part.hall ∧
    t.part.mode = .paused ∧ (∀ i, t.part.counter i = 0) ∧ (∀ y, t.part.useCount y = 0) ∧
    t.part.book.seq = s.part.book.seq ∧
    (∀ n, t.part.order? n = (s.part.order? n).map (fun o =>
      match o.state with
      | .bound _ => { o with state := .waiting, lines := Map.mapValues Line.reset o.lines }
      | _ => o)) ∧
    (Map.rising s.part.builds = true → ∀ b, t.part.build b =
      { state := if (s.part.build b).state = .outOfService ∨
            ((s.part.build b).state = .draining ∧ (s.part.build b).pendingOut = true) then .outOfService else .idle,
        epoch := (s.part.build b).epoch, holdFlag := (s.part.build b).holdFlag }) ∧
    t.part.pool = { free := List.range' 1 1023, recs := [], armed := true } ∧
    (∀ c, t.part.carrier c = {}) ∧ (∀ d, t.part.noticeQueue d = {}) ∧
    t.part.cal = { pointer := 0, credits := s.part.tables.weights, zone := .ambient } ∧
    t.part.calls.seq = s.part.calls.seq ∧
    (Map.rising s.part.calls.recs = true → ∀ r,
      (t.part.call r).state = .free ∧ (t.part.call r).lastLane = (s.part.call r).lastLane ∧
      (t.part.call r).generation =
        if (s.part.call r).state = .free then (s.part.call r).generation else ((s.part.call r).generation + 1) % 16) ∧
    (Map.rising s.part.tables.laneDir = true → ∀ l, t.part.lane l =
      { online := (s.part.laneDir l).configured && decide ((s.part.laneDir l).node ≠ 0) })

/-! ### Hall Tables -/

/-- TABLE_WRITE's first three checks, in their order: a refused write changes nothing (the fourth is in the statements
about what each table stores). The reply to an accepted write carries exactly what a TABLE_READ of the same entry
returns at that moment. -/
def Obligations.TableWritesAreCheckedAndShown : Prop :=
  (∀ (s : State) (pkt : Packet), s.part.receivesRequest .tableWrite pkt →
     ((pkt.u8 8 = 0 ∨ 14 < pkt.u8 8) →
       exec (.tableWrite pkt) s = .next { s with part := s.part.replied pkt .badTable [] }) ∧
     (∀ lo hi, pkt.u8 8 ≠ 0 → indexRanges[pkt.u8 8 - 1]? = some (lo, hi) → (pkt.u16 9 < lo ∨ hi < pkt.u16 9) →
       exec (.tableWrite pkt) s = .next { s with part := s.part.replied pkt .badIndex [] }) ∧
     (pkt.u8 8 = 1 → pkt.u16 9 = 0 →
       exec (.tableWrite pkt) s = .next { s with part := s.part.replied pkt .badValue [] }) ∧
     ((pkt.u8 8 = 1 ∧ 1 ≤ pkt.u16 9 ∧ pkt.u16 9 ≤ 8191 ∨ pkt.u8 8 = 2 ∧ 1 ≤ pkt.u16 9 ∧ pkt.u16 9 ≤ 127 ∨
         pkt.u8 8 = 4 ∧ 1 ≤ pkt.u16 9 ∧ pkt.u16 9 ≤ 255 ∨ pkt.u8 8 = 7 ∧ pkt.u16 9 ≤ 3) →
       s.part.mode ≠ .config →
       exec (.tableWrite pkt) s = .next { s with part := s.part.replied pkt .badState [] }) ∧
     ((pkt.u8 8 = 3 ∧ 1 ≤ pkt.u16 9 ∧ pkt.u16 9 ≤ 255 ∧ (s.part.lane (pkt.u16 9)).online = true ∨
         pkt.u8 8 = 5 ∧ 1 ≤ pkt.u16 9 ∧ pkt.u16 9 ≤ 64 ∧ (s.part.build (pkt.u16 9)).state ≠ .outOfService ∨
         pkt.u8 8 = 10 ∧ 1 ≤ pkt.u16 9 ∧ pkt.u16 9 ≤ 63 ∧ s.part.useCount (pkt.u16 9) ≠ 0 ∨
         pkt.u8 8 = 11 ∧ pkt.u16 9 ≤ 511 ∧ ∃ k y, k < 4 ∧ 1 ≤ y ∧ y ≤ 63 ∧ 0 < s.part.useCount y ∧
           s.part.inFinishList y (4 * pkt.u16 9 + k) = true) →
       exec (.tableWrite pkt) s = .next { s with part := s.part.replied pkt .inUse [] })) ∧
  (∀ (pkt : Packet) (p : Part), (tableWrite pkt p).status = .ok →
     (tableRead pkt (tableWrite pkt p).part).status = .ok ∧
     (tableWrite pkt p).data = (tableRead pkt (tableWrite pkt p).part).data)

/-- Tables 1 to 5: an accepted TABLE_WRITE of an Article Map, Substitution Group, Lane Directory, Arch Map or Bay Table
entry stores it with every field clamped, changes nothing else, and replies the entry as it now reads; a meaningless field
is BAD_VALUE and changes nothing (R27, R31, R32, R34, R36, R38 to R40). -/
def Obligations.DescriptionTablesStoreTheirEntries : Prop :=
  ∀ (s : State) (pkt : Packet), s.part.receivesRequest .tableWrite pkt →
    let i := pkt.u16 9
    let refused : Prop := exec (.tableWrite pkt) s = .next { s with part := s.part.replied pkt .badValue [] }
    let stores : Tables → List Byte → Prop := fun x entry => exec (.tableWrite pkt) s =
      .next { s with part := { s.part with tables := x }.replied pkt .ok (b8 (pkt.u8 8) ++ b16 i ++ entry) }
    let flag : Bool → List Byte := fun f => b8 (if f then 1 else 0)
    (pkt.u8 8 = 1 → 1 ≤ i → i ≤ 8191 → s.part.mode = .config →
      (1 < pkt.u8 11 ∨ (pkt.u8 11 = 1 ∧ (3 < pkt.u8 12 ∨ pkt.u16 13 = 0 ∨ 127 < pkt.u8 17)) → refused) ∧
      (pkt.u8 11 = 0 → ∃ m, stores { s.part.tables with articles := m } (List.replicate 7 0) ∧
        ∀ a, Map.get {} m a = if a = i then {} else s.part.article a) ∧
      (∀ z, pkt.u8 11 = 1 → Zone.ofCode (pkt.u8 12) = some z → pkt.u16 13 ≠ 0 → pkt.u8 17 ≤ 127 →
        ∃ m, stores { s.part.tables with articles := m }
            (b8 1 ++ b8 (pkt.u8 12) ++ b16 (min 30000 (pkt.u16 13)) ++ b8 (min 15 (pkt.u8 15)) ++ b8 (pkt.u8 16) ++
              b8 (pkt.u8 17)) ∧
          ∀ a, Map.get {} m a =
            if a = i then
              { valid := true, zone := z, nominal := min 30000 (pkt.u16 13), tolerance := min 15 (pkt.u8 15),
                homeLane := pkt.u8 16, group := pkt.u8 17 }
            else s.part.article a)) ∧
    (pkt.u8 8 = 2 → 1 ≤ i → i ≤ 127 → s.part.mode = .config →
      let members := ((List.range 8).map (fun k => pkt.u16 (11 + 2 * k))).takeWhile (fun m => decide (m ≠ 0))
      ((∃ m ∈ members, 8191 < m) ∨ ¬ members.Nodup → refused) ∧
      ((∀ m ∈ members, m ≤ 8191) → members.Nodup → ∃ m, stores { s.part.tables with groups := m }
          ((members ++ List.replicate (8 - members.length) 0).map b16).flatten ∧
        ∀ g, Map.get [] m g = if g = i then members else s.part.group g)) ∧
    (pkt.u8 8 = 3 → 1 ≤ i → i ≤ 255 → (s.part.lane i).online = false →
      (1023 ≤ pkt.u16 11 ∨ 3 < pkt.u8 13 ∨ 1 < pkt.u8 15 → refused) ∧
      (∀ z, pkt.u16 11 < 1023 → Zone.ofCode (pkt.u8 13) = some z → pkt.u8 15 ≤ 1 →
        let burst := max 1 (min 4 (pkt.u8 14))
        let x := s.part.lane i
        ∃ m, stores { s.part.tables with laneDir := m }
            (b16 (pkt.u16 11) ++ b8 (pkt.u8 13) ++ b8 burst ++ b8 (pkt.u8 15) ++ b8 0 ++ flag x.stockOut ++ b8 x.misses ++
              flag x.busy.isSome ++ b16 x.queue.length) ∧
          ∀ l, Map.get {} m l =
            if l = i then { node := pkt.u16 11, zone := z, burst := burst, configured := decide (pkt.u8 15 = 1) }
            else s.part.laneDir l)) ∧
    (pkt.u8 8 = 4 → 1 ≤ i → i ≤ 255 → s.part.mode = .config →
      (1 < pkt.u8 11 ∨ 1 < pkt.u8 12 → refused) ∧
      (pkt.u8 11 ≤ 1 → pkt.u8 12 ≤ 1 → ∃ m,
        stores { s.part.tables with
          scales := m,
          lapArch := if pkt.u8 12 = 1 then i else if s.part.tables.lapArch = i then 0 else s.part.tables.lapArch }
          (b8 (pkt.u8 11) ++ b8 (pkt.u8 12)) ∧
        ∀ a, Map.get false m a = if a = i then decide (pkt.u8 11 = 1) else s.part.scale a)) ∧
    (pkt.u8 8 = 5 → 1 ≤ i → i ≤ 64 → (s.part.build i).state = .outOfService →
      let taken := ∃ b, 1 ≤ b ∧ b ≤ 64 ∧ b ≠ i ∧ pkt.u16 13 ≠ 0 ∧ (s.part.bayDir b).bayNode = pkt.u16 13
      (1023 ≤ pkt.u16 11 ∨ 1023 ≤ pkt.u16 13 ∨ 16 ≤ pkt.u8 17 ∨ taken → refused) ∧
      (pkt.u16 11 < 1023 → pkt.u16 13 < 1023 → pkt.u8 17 < 16 → ¬ taken →
        let spur := max 4 (min 32 (pkt.u8 16))
        ∃ m, stores { s.part.tables with bayDir := m }
            (b16 (pkt.u16 11) ++ b16 (pkt.u16 13) ++ b8 (pkt.u8 15) ++ b8 spur ++ b8 (pkt.u8 17) ++
              flag (s.part.build i).holdFlag ++ flag (s.part.build i).blocked ++ b8 0) ∧
          ∀ b, Map.get {} m b =
            if b = i then
              { diverter := pkt.u16 11, bayNode := pkt.u16 13, arch := pkt.u8 15, spur := spur, zones := pkt.byte 17 }
            else s.part.bayDir b))

/-- Tables 6 to 14: an accepted TABLE_WRITE stores its entry clamped and replies it as it now reads, and a meaningless field
is BAD_VALUE. The hall constants, the calendar, the zone weights, the routing, the destinations and the manager table are
written in every mode; the tares in CONFIG; a style while its use count is 0; a Step Store group while none of its steps lies
in a list in use. A write of the zone weights reloads the credits, and a write that gives a STALLED destination a node makes
it try to post, behind the reply (log entry 16). Nothing else changes (R27, R42 to R51, R147, R195). -/
def Obligations.SchedulingAndFinishTablesStoreTheirEntries : Prop :=
  ∀ (s : State) (pkt : Packet), s.part.receivesRequest .tableWrite pkt →
    let i := pkt.u16 9
    let refused : Prop := exec (.tableWrite pkt) s = .next { s with part := s.part.replied pkt .badValue [] }
    let reply : List Byte → List Byte := fun entry => b8 (pkt.u8 8) ++ b16 i ++ entry
    let stores : Tables → List Byte → Prop := fun x entry => exec (.tableWrite pkt) s =
      .next { s with part := { s.part with tables := x }.replied pkt .ok (reply entry) }
    (∀ lo hi, pkt.u8 8 = 6 →
      [(1, 255), (1, 65535), (1, 255), (1, 255), (1, 255), (1, 65535), (1, 15), (1, 15), (0, 255), (0, 512)][i]? =
        some (lo, hi) →
      let value := if pkt.u16 11 < lo then lo else if hi < pkt.u16 11 then hi else pkt.u16 11
      let consts := s.part.tables.consts.set i value
      stores { s.part.tables with consts := consts } (b16 (consts.getD i 0))) ∧
    (pkt.u8 8 = 7 → i ≤ 3 → s.part.mode = .config →
      let tares := s.part.tables.tares.set i (min 4000 (pkt.u16 11))
      stores { s.part.tables with tares := tares } (b16 (tares.getD i 0))) ∧
    (pkt.u8 8 = 8 → i ≤ 31 → ∃ m,
      stores { s.part.tables with calendar := m } ((List.range 16).map (fun k => pkt.byte (11 + k))) ∧
      ∀ e, Map.get 0 m e =
        if 16 * i ≤ e ∧ e < 16 * i + 16 then pkt.u8 (11 + (e - 16 * i)) else s.part.calendarEntry e) ∧
    (pkt.u8 8 = 9 → i = 0 →
      let weights := (List.range 4).map (fun k => min 15 (pkt.u8 (11 + k)))
      exec (.tableWrite pkt) s = .next { s with part :=
        { s.part with
          tables := { s.part.tables with weights := weights }
          cal := { s.part.cal with credits := weights } }.replied pkt .ok (reply (weights.map b8).flatten) }) ∧
    (pkt.u8 8 = 10 → 1 ≤ i → i ≤ 63 → s.part.useCount i = 0 →
      (2047 < pkt.u16 11 → refused) ∧
      (pkt.u16 11 ≤ 2047 → ∃ m, stores { s.part.tables with styles := m } (b16 (pkt.u16 11) ++ b8 0) ∧
        ∀ y, Map.get 0 m y = if y = i then pkt.u16 11 else s.part.styleStart y)) ∧
    (pkt.u8 8 = 11 → i ≤ 511 →
      (∀ k y, k < 4 → 1 ≤ y → y ≤ 63 → 0 < s.part.useCount y → s.part.inFinishList y (4 * i + k) = false) →
      let sent : Nat → Option Step := fun j =>
        if pkt.u8 j = 0 then some .invalid
        else if pkt.u8 j = 1 ∨ pkt.u8 j = 2 then
          if pkt.u8 (j + 1) = 0 then none
          else some (.action (decide (pkt.u8 j = 2)) (pkt.u8 (j + 1)) (pkt.u16 (j + 2)))
        else if pkt.u8 j = 3 then some (.wait (max 1 (pkt.u16 (j + 2))))
        else if pkt.u8 j = 4 then some (.note (pkt.u16 (j + 2)))
        else if pkt.u8 j = 5 then some .finish
        else none
      let read : Step → List Byte := fun x =>
        match x with
        | .invalid => [0, 0, 0, 0]
        | .action refuse code parameter => b8 (if refuse then 2 else 1) ++ b8 code ++ b16 parameter
        | .wait ticks => b8 3 ++ b8 0 ++ b16 ticks
        | .note tag => b8 4 ++ b8 0 ++ b16 tag
        | .finish => [5, 0, 0, 0]
      ((sent 11 = none ∨ sent 15 = none ∨ sent 19 = none ∨ sent 23 = none) → refused) ∧
      (∀ x₀ x₁ x₂ x₃, sent 11 = some x₀ → sent 15 = some x₁ → sent 19 = some x₂ → sent 23 = some x₃ →
        ∃ m, stores { s.part.tables with steps := m } (read x₀ ++ read x₁ ++ read x₂ ++ read x₃) ∧
          ∀ k, Map.get .invalid m k =
            if k = 4 * i then x₀ else if k = 4 * i + 1 then x₁ else if k = 4 * i + 2 then x₂
            else if k = 4 * i + 3 then x₃ else s.part.step k)) ∧
    (pkt.u8 8 = 12 → 1 ≤ i → i ≤ 16 →
      (4 < pkt.u8 11 ∨ 2 < pkt.u8 12 → refused) ∧
      (∀ a, pkt.u8 11 ≤ 4 → RouteAction.ofCode (pkt.u8 12) = some a →
        ∃ m, stores { s.part.tables with routing := m } (b8 (pkt.u8 11) ++ b8 (pkt.u8 12) ++ b16 (pkt.u16 13)) ∧
          ∀ k, (Map.get {} m k : Routing) =
            if k = i then { dest := pkt.u8 11, action := a, tags := pkt.u16 13 }
            else Map.get {} s.part.tables.routing k)) ∧
    (pkt.u8 8 = 13 → 1 ≤ i → i ≤ 4 →
      (1023 < pkt.u16 11 → refused) ∧
      (pkt.u16 11 ≤ 1023 → ∃ m,
        (∀ d, (Map.get {} m d : Destination) =
          if d = i then { node := pkt.u16 11, pacing := pkt.u8 13 } else s.part.destination d) ∧
        ((s.part.noticeQueue i).state ≠ .stalled ∨ pkt.u16 11 = 0 →
          stores { s.part.tables with dests := m } (b16 (pkt.u16 11) ++ b8 (pkt.u8 13))) ∧
        ((s.part.noticeQueue i).state = .stalled → pkt.u16 11 ≠ 0 → ∃ t : Part,
          exec (.tableWrite pkt) s = .next { s with part :=
            (t.withReply s.part pkt .ok (reply (b16 (pkt.u16 11) ++ b8 (pkt.u8 13)))) } ∧
          ({ s.part with tables := { s.part.tables with dests := m } }.replied pkt .ok []).triesToPost i t))) ∧
    (pkt.u8 8 = 14 → 1 ≤ i → i ≤ 2 →
      (1023 ≤ pkt.u16 11 → refused) ∧
      (pkt.u16 11 < 1023 → ∃ m, stores { s.part.tables with managers := m } (b16 (pkt.u16 11)) ∧
        ∀ k, Map.get 0 m k = if k = i then pkt.u16 11 else s.part.manager k))

/-! ### The Order Book -/

/-- ORDER_HEAD and ORDER_LINE: the checks of each in order; an accepted head creates its record in DRAFT with the next book
sequence number; an accepted line is added, and the last one takes the order from DRAFT to WAITING, a binding event for all
bays that follows the reply's data (log entry 16). -/
def Obligations.OrderRequestsLoadAnOrder : Prop :=
  (∀ (s : State) (pkt : Packet), s.part.receivesRequest .orderHead pkt →
    let sane := pkt.u32 8 ≠ 0 ∧ pkt.u8 12 ≤ 3 ∧ pkt.u8 17 ≤ 63 ∧ 1 ≤ pkt.u8 20 ∧ pkt.u8 20 ≤ 16 ∧ pkt.u8 21 ≤ 1
    (¬ sane → exec (.orderHead pkt) s = .next { s with part := s.part.replied pkt .badValue [] }) ∧
    (sane → 1024 ≤ s.part.book.orders.length →
      exec (.orderHead pkt) s = .next { s with part := s.part.replied pkt .full [] }) ∧
    (sane → s.part.book.orders.length < 1024 → (s.part.order? (pkt.u32 8)).isSome = true →
      exec (.orderHead pkt) s = .next { s with part := s.part.replied pkt .duplicate [] }) ∧
    (sane → s.part.book.orders.length < 1024 → s.part.order? (pkt.u32 8) = none →
      ∃ t, exec (.orderHead pkt) s = .next t ∧
        t = { s with part :=
          ({ s.part with book := t.part.book }.replied pkt .ok
            (b32 (s.part.book.seq + 1).toNat ++ b16 (max 500 (min 30000 (pkt.u16 18))))) } ∧
        t.part.book.seq = s.part.book.seq + 1 ∧
        (∀ n, n ≠ pkt.u32 8 → t.part.order? n = s.part.order? n) ∧
        t.part.order? (pkt.u32 8) = some
          { priority := pkt.u8 12, due := BitVec.ofNat 32 (pkt.u32 13), style := pkt.u8 17,
            ceiling := max 500 (min 30000 (pkt.u16 18)), declared := pkt.u8 20, tolerant := pkt.u8 21 = 1,
            seq := s.part.book.seq + 1, state := .draft, lines := [] })) ∧
  (∀ (s : State) (pkt : Packet), s.part.receivesRequest .orderLine pkt →
    (s.part.order? (pkt.u32 8) = none →
      exec (.orderLine pkt) s = .next { s with part := s.part.replied pkt .unknownOrder [] }) ∧
    ∀ o, s.part.order? (pkt.u32 8) = some o →
      let a := pkt.u16 13
      let sane := a ≠ 0 ∧ a ≤ 8191 ∧ (s.part.article a).valid = true ∧ pkt.u8 15 ≠ 0 ∧ pkt.u8 16 ≤ 2
      (o.state ≠ .draft → exec (.orderLine pkt) s = .next { s with part := s.part.replied pkt .badState [] }) ∧
      (o.state = .draft → o.declared ≤ pkt.u8 12 →
        exec (.orderLine pkt) s = .next { s with part := s.part.replied pkt .badIndex [] }) ∧
      (o.state = .draft → pkt.u8 12 < o.declared → ¬ sane →
        exec (.orderLine pkt) s = .next { s with part := s.part.replied pkt .badValue [] }) ∧
      (o.state = .draft → pkt.u8 12 < o.declared → sane → (Map.find? o.lines (pkt.u8 12)).isSome = true →
        exec (.orderLine pkt) s = .next { s with part := s.part.replied pkt .duplicate [] }) ∧
      (o.state = .draft → pkt.u8 12 < o.declared → sane → Map.find? o.lines (pkt.u8 12) = none →
        ∀ m, LineMode.ofCode (pkt.u8 16) = some m →
        let lines := Map.put o.lines (pkt.u8 12)
          { article := a, quantity := min 15 (pkt.u8 15), mode := m, uncalled := min 15 (pkt.u8 15) }
        let state : OrderState := if lines.length = o.declared then .waiting else .draft
        let u := (s.part.replied pkt .ok []).modOrder (pkt.u32 8) (fun _ => { o with lines := lines, state := state })
        exec (.orderLine pkt) s = .next { s with part :=
          ((if lines.length = o.declared then u.bindingEvent takeLaneOut (List.range' 1 64) else u).withReply s.part pkt .ok
            (b8 lines.length ++ b8 state.code ++ b8 (min 15 (pkt.u8 15)))) }))

/-- ORDER_CANCEL: its checks in order, and the order that is not BOUND becomes CANCELLED with its lines as they were. -/
def Obligations.OrderCancelEndsAnOrder : Prop :=
  ∀ (s : State) (pkt : Packet), s.part.receivesRequest .orderCancel pkt →
    (s.part.order? (pkt.u32 8) = none →
      exec (.orderCancel pkt) s = .next { s with part := s.part.replied pkt .unknownOrder [] }) ∧
    ∀ o, s.part.order? (pkt.u32 8) = some o →
      (o.state = .done ∨ o.state = .doneShort ∨ o.state = .cancelled ∨ o.state = .failed →
        exec (.orderCancel pkt) s = .next { s with part := s.part.replied pkt .badState [] }) ∧
      (∀ b, o.state = .bound b → (s.part.build b).state = .clearing →
        exec (.orderCancel pkt) s = .next { s with part := s.part.replied pkt .badState [] }) ∧
      (o.state = .draft ∨ o.state = .waiting →
        exec (.orderCancel pkt) s = .next { s with part :=
          ((s.part.modOrder (pkt.u32 8) (fun x => { x with state := .cancelled })).replied pkt .ok
            (b8 o.state.code ++ b8 0)) })

/-- ORDER_PURGE: its checks in order; with a number it removes that one terminal record, with 0 every terminal record;
the reply carries the number removed, and nothing else changes. -/
def Obligations.OrderPurgeRemovesTerminalRecords : Prop :=
  ∀ (s : State) (pkt : Packet), s.part.receivesRequest .orderPurge pkt →
    (pkt.u32 8 ≠ 0 → s.part.order? (pkt.u32 8) = none →
      exec (.orderPurge pkt) s = .next { s with part := s.part.replied pkt .unknownOrder [] }) ∧
    (∀ o, pkt.u32 8 ≠ 0 → s.part.order? (pkt.u32 8) = some o →
      (o.state = .draft ∨ o.state = .waiting ∨ ∃ b, o.state = .bound b) →
      exec (.orderPurge pkt) s = .next { s with part := s.part.replied pkt .badState [] }) ∧
    (∀ o, pkt.u32 8 ≠ 0 → s.part.order? (pkt.u32 8) = some o →
      (o.state = .done ∨ o.state = .doneShort ∨ o.state = .cancelled ∨ o.state = .failed) →
      ∃ t, exec (.orderPurge pkt) s = .next t ∧
        t = { s with part :=
          ({ s.part with book := { s.part.book with orders := t.part.book.orders } }.replied pkt .ok (b16 1)) } ∧
        t.part.order? (pkt.u32 8) = none ∧ ∀ n, n ≠ pkt.u32 8 → t.part.order? n = s.part.order? n) ∧
    (pkt.u32 8 = 0 → exec (.orderPurge pkt) s = .next { s with part :=
      ({ s.part with book := { s.part.book with
          orders := s.part.book.orders.filter (fun kv : Nat × Order => !kv.2.state.terminal) } }.replied pkt .ok
        (b16 (s.part.book.orders.length -
          (s.part.book.orders.filter (fun kv : Nat × Order => !kv.2.state.terminal)).length))) })

/-- The urgency key: priority, then due tick, then book sequence number, all as unsigned numbers; it orders any two
orders strictly, but for those with all three equal. -/
def Obligations.UrgencyIsAStrictOrder : Prop :=
  (∀ a b : Order, moreUrgent a b = true ↔
    a.priority < b.priority ∨ (a.priority = b.priority ∧
      (a.due.toNat < b.due.toNat ∨ (a.due = b.due ∧ a.seq.toNat < b.seq.toNat)))) ∧
  (∀ a : Order, moreUrgent a a = false) ∧
  (∀ a b c : Order, moreUrgent a b = true → moreUrgent b c = true → moreUrgent a c = true) ∧
  (∀ a b : Order, moreUrgent a b = true ∨ moreUrgent b a = true ∨
    (a.priority = b.priority ∧ a.due = b.due ∧ a.seq = b.seq))

/-- The order a candidate bay receives is the most urgent WAITING order that fits it, the one with the lower number
where the key leaves two equal; without a fitting one it receives none. The book is in its canonical form. -/
def Obligations.ABayReceivesTheMostUrgentFittingOrder : Prop :=
  ∀ (p : Part) (b : Nat), Map.rising p.book.orders = true →
    let fitting := fun o : Order => o.state = .waiting ∧ (p.bayDir b).zones ≠ 0 ∧
      ∀ i l, (i, l) ∈ o.lines → (p.article l.article).valid = true →
        inZones (p.bayDir b).zones (p.article l.article).zone = true
    (p.chosenOrder b = none ↔ ∀ n o, p.order? n = some o → ¬ fitting o) ∧
    (∀ n, p.chosenOrder b = some n → ∃ o, p.order? n = some o ∧ fitting o ∧
      ∀ m o', p.order? m = some o' → fitting o' →
        moreUrgent o' o = false ∧ (moreUrgent o o' = false → n ≤ m))

/-- A binding event serves the bays it names that are candidates, in ascending number: each receives the order the arbiter
chooses for it, if any. Binding an order makes it BOUND with its lines reset, and opens the build: GATHERING with the order,
its epoch raised, weight, orphan and chill expiry counts 0 and the finish fields idle; calls are sought for the lines in
ascending index, the completion test is made, and BOUND is raised (R64 to R66, R76). -/
def Obligations.BindingsOpenABuild : Prop :=
  (∀ (p : Part) (bays : List Nat), p.bindingEvent takeLaneOut bays =
    (bays.filter (fun b => decide ((p.build b).state = .idle ∧ (p.build b).holdFlag = false ∧ p.mode = .run))).foldl
      (fun q b => match q.chosenOrder b with | none => q | some n => q.bind takeLaneOut b n) p) ∧
  (∀ (p : Part) (b n : Nat) (o : Order), p.order? n = some o → ∃ u : Part,
    u.Same ((p.modOrder n (fun o =>
      { o with state := .bound b, lines := Map.mapValues (fun l =>
        { l with member := 0, held := 0, enRoute := 0, outstanding := 0, uncalled := l.quantity, short := 0,
                 cause := none }) o.lines })).modBuild b (fun y =>
      { y with state := .gathering, order := n, epoch := (y.epoch + 1) % 16, committed := 0, orphans := 0,
               chillCount := 0, dwell := .stopped, pendingOut := false, pointer := 0, stepTimer := .stopped,
               waitTimer := .stopped, stopCause := .none, heldStep := none })) ∧
    p.bind takeLaneOut b n =
      (((o.lines.map Prod.fst).foldl (fun q i => q.request takeLaneOut b i) u).completionTest takeLaneOut b).raise
        takeLaneOut { kind := .bound, bay := b, order := n })

/-! ### Hall time and notices -/

/-- An accepted Tick: the hall time takes its number, and every timer of every build, call record, carrier and notice
destination advances by the step: 1 while the hall time is invalid, otherwise the rise of the number, at most 16. A
timer holding no more than the step expires; that an expiry waits to be taken is the model's own (log entry 6). -/
def Obligations.TicksAdvanceEveryTimer : Prop :=
  ∀ (s : State) (pkt : Packet) (n : Nat), s.part.hears pkt →
    (s.part.hall.valid = false ∧ n = 1 ∨
      s.part.hall.valid = true ∧ s.part.hall.time.toNat < pkt.u32 6 ∧ n = min 16 (pkt.u32 6 - s.part.hall.time.toNat)) →
    let after : Timer → Timer := fun x =>
      match x with
      | .stopped => .stopped
      | .running v => if v ≤ n then .expired else .running (v - n)
      | .expired => .expired
    ∃ t, exec (.tick pkt) s = .next t ∧
      t = { s with part := { s.part.passOn .tick pkt with
        hall := { time := BitVec.ofNat 32 (pkt.u32 6), valid := true }, builds := t.part.builds,
        calls := { s.part.calls with recs := t.part.calls.recs }, carriers := t.part.carriers,
        notices := t.part.notices } } ∧
      (∀ b, t.part.build b = { s.part.build b with
        dwell := after (s.part.build b).dwell, stepTimer := after (s.part.build b).stepTimer,
        waitTimer := after (s.part.build b).waitTimer }) ∧
      (∀ r, t.part.call r = { s.part.call r with
        answer := after (s.part.call r).answer, retry := after (s.part.call r).retry,
        persist := after (s.part.call r).persist }) ∧
      (∀ c, t.part.carrier c =
        match (s.part.carrier c).state with
        | .steered b i r x => { s.part.carrier c with state := .steered b i r (after x) }
        | _ => s.part.carrier c) ∧
      (∀ d, t.part.noticeQueue d = { s.part.noticeQueue d with timer := after (s.part.noticeQueue d).timer })

/-- A Tick whose number does not rise is ignored, counted as a tick fault and noticed; what raising a notice does: with
destination 0 nothing is queued, a full destination queue counts the notice as lost, and otherwise it joins the tail with
its user tags and the hall tick, and an IDLE destination makes a post attempt at once. A pacing timer's expiry leaves a
destination with nothing queued IDLE, and otherwise makes a post attempt. Without an expiry to take PACING_TIMEOUT does
nothing (log entry 7). -/
def Obligations.NoticesAreQueuedAndPosted : Prop :=
  (∀ (s : State) (pkt : Packet), s.part.hears pkt → s.part.hall.valid = true →
    pkt.u32 6 ≤ s.part.hall.time.toNat →
    let base := (s.part.passOn .tick pkt).count .tickFaults
    let route := s.part.routing .tickFault
    let d := route.dest
    let q := s.part.noticeQueue d
    let e : NoticeEntry := ⟨{ kind := .tickFault }, route.tags, s.part.hall.time⟩
    let leaves : (Part → Prop) → Prop := fun ok => ∃ t, exec (.tick pkt) s = .next { s with part := t } ∧ ok t
    (d = 0 → exec (.tick pkt) s = .next { s with part := base }) ∧
    (d ≠ 0 → 16 ≤ q.queue.length →
      leaves (fun t => t.Same (base.setNoticeQueue d { q with lost := min 255 (q.lost + 1) }))) ∧
    (d ≠ 0 → q.queue.length < 16 → q.state ≠ .idle →
      leaves (fun t => t.Same (base.setNoticeQueue d { q with queue := q.queue ++ [e] }))) ∧
    (d ≠ 0 → q.queue.length < 16 → q.state = .idle →
      leaves ((base.setNoticeQueue d { q with queue := q.queue ++ [e] }).triesToPost d))) ∧
  (∀ (s : State) (d : Nat), s.part.ring.resetHeld = false →
    let q := s.part.noticeQueue d
    (q.timer ≠ .expired ∨ q.state ≠ .pacing → exec (.pacingTimeout d) s = .next s) ∧
    (q.timer = .expired → q.state = .pacing → ∃ t, exec (.pacingTimeout d) s = .next { s with part := t } ∧
      s.part.triesToPost d t))

/-- Raising a notice queues it for its kind's destination, none for 0, a full queue counting it as lost, an IDLE destination
making a post attempt; then its kind's action is carried out, whatever the destination: HOLD_BAY sets the hold flag of the
bay it names, and LANE_OFFLINE takes the ONLINE lane it names OFFLINE and resolves its queue; FINISH_STOP names no lane. The
bound of 254 further lanes in a chain of such actions is the model's (R191 to R195; log entry 20). -/
def Obligations.RaisedNoticesAreQueuedAndActedOn : Prop :=
  ∀ (p : Part) (n : Notice),
    let route := p.routing n.kind
    let d := route.dest
    let q := p.noticeQueue d
    let e : NoticeEntry := ⟨n, route.tags, p.hall.time⟩
    let lane := if n.kind = .finishStop then 0 else n.lane
    let t := p.raise takeLaneOut n
    ∃ u : Part,
      ((d = 0 → u = p) ∧
        (d ≠ 0 → 16 ≤ q.queue.length → u.Same (p.setNoticeQueue d { q with lost := min 255 (q.lost + 1) })) ∧
        (d ≠ 0 → q.queue.length < 16 → q.state ≠ .idle →
          u.Same (p.setNoticeQueue d { q with queue := q.queue ++ [e] })) ∧
        (d ≠ 0 → q.queue.length < 16 → q.state = .idle →
          (p.setNoticeQueue d { q with queue := q.queue ++ [e] }).triesToPost d u)) ∧
      (route.action = .none → t = u) ∧
      (route.action = .holdBay →
        (n.bay = 0 → t = u) ∧
        (n.bay ≠ 0 → t.Same (u.modBuild n.bay (fun y => { y with holdFlag := true })))) ∧
      (route.action = .laneOffline →
        (lane = 0 ∨ (p.lane lane).online = false → t = u) ∧
        (lane ≠ 0 → (p.lane lane).online = true →
          t = (u.modLane lane (fun x => { x with online := false })).resolveQueue (takeLaneOutUpTo 254) false lane))

/-! ### Calls -/

/-- A request for a line's uncalled units, made by a GATHERING build alone. HOME and PERSIST: INVALID_ARTICLE, NO_LANE, for
HOME also LANE_OFFLINE and LANE_EMPTY, send them short; then the ceiling test calls them all, or as many as fit with the
others short of WEIGHT, or none. SUBSTITUTE: all are called at the position the search finds from the current member, or
they go short with NO_SUBSTITUTE and the member becomes 8. A call takes the lowest FREE record (R121 to R124; a PERSIST
call on a lane both OFFLINE and EMPTY is log entry 41). -/
def Obligations.CallsAreCreatedForUncalledUnits : Prop :=
  ∀ (p : Part) (b i : Nat) (o : Order) (l : Line), p.orderAt b = some o → Map.find? o.lines i = some l →
    let t := p.request takeLaneOut b i
    let k := l.uncalled
    let W := (p.build b).committed
    let C := o.ceiling
    let goes : Nat → ShortCause → Nat → Part → Prop := fun n cause lane =>
      p.goesShort takeLaneOut b i (fun x =>
        { x with uncalled := x.uncalled - n, short := x.short + n, cause := some cause }) lane
    (k = 0 ∨ (p.build b).state ≠ .gathering → t = p) ∧
    (0 < k → (p.build b).state = .gathering → l.mode ≠ .substitute →
      let a := p.article l.article
      let x := p.lane a.homeLane
      (a.valid = false → goes k .invalidArticle 0 t) ∧
      (a.valid = true → a.homeLane = 0 → goes k .noLane 0 t) ∧
      (a.valid = true → a.homeLane ≠ 0 → l.mode = .home → x.online = false → goes k .laneOffline a.homeLane t) ∧
      (a.valid = true → a.homeLane ≠ 0 → l.mode = .home → x.online = true → x.stockOut = true →
        goes k .laneEmpty a.homeLane t) ∧
      (a.valid = true → a.homeLane ≠ 0 → (l.mode = .home → x.online = true ∧ x.stockOut = false) →
        (W + k * a.nominal ≤ C → p.callTaken b i k l.mode 0 l.article t) ∧
        (C < W + k * a.nominal →
          let fit := if W < C then (C - W) / a.nominal else 0
          (fit = 0 → goes k .weight 0 t) ∧
          (0 < fit → ∃ u : Part, goes (k - fit) .weight 0 u ∧ u.callTaken b i fit l.mode 0 l.article t)))) ∧
    (0 < k → (p.build b).state = .gathering → l.mode = .substitute →
      (∀ pos art, p.search b l.article k W C l.member = some (pos, art) →
        (p.modLine b i (fun x => { x with member := pos })).callTaken b i k .substitute pos art t) ∧
      (p.search b l.article k W C l.member = none →
        p.goesShort takeLaneOut b i (fun x =>
          { x with member := 8, uncalled := x.uncalled - k, short := x.short + k, cause := some .noSubstitute }) 0 t))

/-- The search of a SUBSTITUTE line ends at the first position from its start to 8 whose article, the line's own at 0 and
otherwise the group's member other than it, is valid, has an ONLINE home lane that is not EMPTY, lies in the bay's zones, and
fits the ceiling with all the units. A record that moves on leaves its lane and gives up its weight first, searches from
the position after its member or from the line's current member when that lies further on, and joins the tail of the new
lane's queue with the generation raised if it was SENT; with the search exhausted its units go short with NO_SUBSTITUTE and
it is freed and offered (R122, R131; log entry 18). -/
def Obligations.SubstitutesMoveOnToTheNextMember : Prop :=
  (∀ (p : Part) (b own k W C start : Nat),
    let resolves : Nat → Nat → Prop := fun pos art =>
      (pos = 0 ∧ art = own) ∨ (1 ≤ pos ∧ art ≠ own ∧ (p.article own).valid = true ∧ (p.article own).group ≠ 0 ∧
        (p.group (p.article own).group)[pos - 1]? = some art)
    let passes : Nat → Nat → Prop := fun pos art =>
      let a := p.article art
      resolves pos art ∧ a.valid = true ∧ a.homeLane ≠ 0 ∧ (p.lane a.homeLane).online = true ∧
        (p.lane a.homeLane).stockOut = false ∧ inZones (p.bayDir b).zones a.zone = true ∧ W + k * a.nominal ≤ C
    (∀ pos art, p.search b own k W C start = some (pos, art) ↔
      start ≤ pos ∧ pos ≤ 8 ∧ passes pos art ∧ ∀ q x, start ≤ q → q < pos → ¬ passes q x) ∧
    (p.search b own k W C start = none ↔ ∀ q x, start ≤ q → q ≤ 8 → ¬ passes q x)) ∧
  (∀ (p : Part) (r : Nat) (o : Order) (l : Line),
    let c := p.call r
    let t := p.moveOn takeLaneOut r
    p.orderAt c.bay = some o → p.lineAt c.bay c.line = some l → (p.build c.bay).state = .gathering → 0 < c.count →
    let lowered := (p.modLane c.lane (fun x =>
      { x with queue := x.queue.filter (· ≠ r), busy := if x.busy = some r then none else x.busy })).modBuild c.bay
        (fun y => { y with committed := y.committed - c.count * c.nominal })
    let found := p.search c.bay l.article c.count ((p.build c.bay).committed - c.count * c.nominal) o.ceiling
      (max (c.member + 1) l.member)
    (∀ pos art, found = some (pos, art) →
      let a := p.article art
      t.Same ((((lowered.modLine c.bay c.line (fun x => { x with member := pos })).modCall r (fun x =>
        { x with state := .queued, generation := if x.state = .sent then (x.generation + 1) % 16 else x.generation,
                 member := pos, article := art, nominal := a.nominal, lane := a.homeLane, sentCount := 0,
                 answer := .stopped })).modLane a.homeLane (fun x => { x with queue := x.queue ++ [r] })).modBuild c.bay
          (fun y => { y with committed := y.committed + c.count * a.nominal }))) ∧
    (found = none → ∃ u : Part,
      (lowered.modCall r (fun x => { x with count := 0 })).goesShort takeLaneOut c.bay c.line (fun x =>
        { x with member := 8, outstanding := x.outstanding - c.count, short := x.short + c.count,
                 cause := some .noSubstitute }) 0 u ∧
      t = u.freeAndOffer takeLaneOut r))

/-- A freed record leaves its lane, its generation rises by 1 modulo 16, it keeps its last lane and loses every other field,
and it is offered: to the lines that wait, one after another, the most urgent GATHERING build first, the lower bay where
the key leaves two equal, and its lowest waiting line, until one takes it or none waits. The bound of 1025 offers, one for
every line of the 64 bays and one more, is the model's (R115, R116, R125). -/
def Obligations.FreedRecordsGoToTheNeediestLine : Prop :=
  (∀ (p : Part) (r : Nat), ∃ u : Part,
    u.Same ((p.modLane (p.call r).lane (fun x =>
      { x with queue := x.queue.filter (· ≠ r), busy := if x.busy = some r then none else x.busy })).modCall r (fun c =>
        { generation := (c.generation + 1) % 16, lastLane := c.lastLane })) ∧
    p.freeAndOffer takeLaneOut r = u.offer takeLaneOut r) ∧
  (∀ (r n : Nat) (p t : Part), n ≤ 1025 → Part.Offers r n p t → p.offer takeLaneOut r = t)

/-- A lane's queue is resolved record by record as it stood: a record no longer QUEUED there is passed over; a HOME record's
count goes short with the cause, naming the lane; a SUBSTITUTE record moves on; a PERSIST record is DEFERRED on an EMPTY lane
and stays on an OFFLINE one; what a record frees is offered before the next is resolved (log entries 21 and 42). A record that goes short leaves its
queue with count 0 before the shortage is reported, and is freed after the completion test (log entry 18). Setting the
EMPTY flag of a lane resolves its queue and then raises LANE_EMPTY; a lane already EMPTY is left alone. `off` is what a
LANE_OFFLINE routing action does (R128, R135). -/
def Obligations.EmptyAndOfflineLanesResolveTheirQueues : Prop :=
  ∀ (off : LaneAction) (p : Part) (l : Nat),
    (∀ (empty : Bool) (r : Nat),
      let t := p.resolveOne off empty l r
      (r ∉ (p.lane l).queue ∨ (p.call r).state ≠ .queued → t = p) ∧
      (r ∈ (p.lane l).queue → (p.call r).state = .queued →
        ((p.call r).mode = .home → p.endsShort off r (if empty then .laneEmpty else .laneOffline) l t) ∧
        ((p.call r).mode = .substitute → t = p.moveOn off r) ∧
        ((p.call r).mode = .persist → empty = true → t.Same (p.modCall r (fun c =>
          { c with state := .deferred, retry := .running (p.const 2) }))) ∧
        ((p.call r).mode = .persist → empty = false → t = p))) ∧
    (∀ empty : Bool,
      ((p.lane l).queue = [] → p.resolveQueue off empty l = p) ∧
      (∀ before r, (p.lane l).queue = before ++ [r] →
        p.resolveQueue off empty l = (before.foldl (fun q x => q.resolveOne off empty l x) p).resolveOne off empty l r)) ∧
    (∀ who : Notice,
      ((p.lane l).stockOut = true → p.setStockOut off l who = p) ∧
      ((p.lane l).stockOut = false →
        p.setStockOut off l who =
          ((p.modLane l (fun x => { x with stockOut := true })).resolveQueue off true l).raise off
            { kind := .laneEmpty, bay := who.bay, order := who.order, article := who.article, lane := l }))

/-- CALL_UNDELIVERED and ANSWER_TIMEOUT: the SENT record they match returns to its queue and meets its lane, and the lane
takes a miss; an undelivered Call that matches no SENT record is counted only; an ORPHAN's answer timeout frees the record,
lowers its bay's orphan count, tests the drain and offers the record. RETRY_TIMEOUT makes a DEFERRED record QUEUED where it
stands. PERSIST_TIMEOUT sets expire-on-answer in a SENT record, and sends the count of a QUEUED or DEFERRED one short with
PERSIST_TIMEOUT, naming the lane (log entry 18). A timeout command without its expiry does nothing (log entry 7). -/
def Obligations.CallTimersAndLostCalls : Prop :=
  (∀ (s : State) (pkt : Packet), s.part.ownReturned pkt →
    let r := tagIndex (pkt.u16 6)
    ((s.part.call r).state = .sent → (s.part.call r).generation = tagHigh (pkt.u16 6) →
      ∃ t, exec (.callUndelivered pkt) s = .next { s with part := t } ∧ (s.part.stripCounted .call).lostCall r t) ∧
    ((s.part.call r).state ≠ .sent ∨ (s.part.call r).generation ≠ tagHigh (pkt.u16 6) →
      exec (.callUndelivered pkt) s = .next { s with part := s.part.stripCounted .call })) ∧
  (∀ (s : State) (r : Nat), s.part.ring.resetHeld = false →
    let c := s.part.call r
    (c.answer ≠ .expired → exec (.answerTimeout r) s = .next s) ∧
    (c.answer = .expired → c.state = .sent →
      ∃ t, exec (.answerTimeout r) s = .next { s with part := t } ∧ s.part.lostCall r t) ∧
    (c.answer = .expired → c.state = .orphan →
      ∃ t u : Part, exec (.answerTimeout r) s = .next { s with part := t } ∧
        u.Same (((s.part.modLane c.lane (fun x =>
          { x with queue := x.queue.filter (· ≠ r), busy := if x.busy = some r then none else x.busy })).modCall r (fun _ =>
            { generation := (c.generation + 1) % 16, lastLane := c.lastLane })).modBuild c.bay (fun x =>
              { x with orphans := x.orphans - 1 })) ∧
        t = (u.drainTest takeLaneOut c.bay).offer takeLaneOut r) ∧
    (c.retry = .expired → c.state = .deferred →
      exec (.retryTimeout r) s = .next { s with part :=
        (s.part.modCall r (fun x => { x with state := .queued, retry := .stopped })) }) ∧
    (c.retry ≠ .expired → exec (.retryTimeout r) s = .next s) ∧
    (c.persist ≠ .expired → exec (.persistTimeout r) s = .next s) ∧
    (c.persist = .expired → c.state = .sent →
      exec (.persistTimeout r) s = .next { s with part :=
        (s.part.modCall r (fun x => { x with expire := true, persist := .stopped })) }) ∧
    (c.persist = .expired → c.state = .queued ∨ c.state = .deferred →
      ∃ t, exec (.persistTimeout r) s = .next { s with part := t } ∧
        s.part.endsShort takeLaneOut r .persistTimeout c.lane t))

/-- A current Answer: the answer timer stops and the lane ceases to be busy; the stock flag is applied; PLACED sets the miss
count to 0; the first carriers, up to the count sent, are credited to the call's line or are conflicts, and the others become
SURPLUS with the call's article or are conflicts. Then the record is freed at count 0, ends short with expire-on-answer set,
returns to its queue on a FAULT, ends short, returns or moves on by its mode on EMPTY stock, and otherwise returns. A record
that ends short leaves its queue with count 0 first and is freed last (log entry 18). A FAULT charges the lane a miss last (log entry 19). Whether a carrier that was SURPLUS keeps its weight is a free value (log entry
25), and the laps a carrier keeps are the model's choice (log entry 27) (R127 to R130). -/
def Obligations.AnswersCreditTheirCarriers : Prop :=
  ∀ (s : State) (pkt : Packet), pkt.wf = true → s.part.receives pkt → s.part.mode ≠ .config →
    answerChecks pkt = true →
    let r := tagIndex (pkt.u16 6)
    let c := s.part.call r
    let placed := pkt.u8 8 = 1
    let ids := (List.range (pkt.u8 10)).map (fun k => pkt.u16 (11 + 2 * k))
    let order := (s.part.build c.bay).order
    let credit : Part → Nat → Part := fun q id =>
      if 1 ≤ id ∧ id ≤ 4095 ∧
          ((q.carrier id).state = .free ∨ (q.carrier id).state = .surplus ∨ (q.carrier id).state = .reject) then
        ((q.setCarrier id { state := .enRoute (q.call r).bay (q.call r).line, article := (q.call r).article }).modCall r
          (fun y => { y with count := y.count - 1 })).modLine (q.call r).bay (q.call r).line (fun l =>
            { l with outstanding := l.outstanding - 1, enRoute := l.enRoute + 1 })
      else q.count .conflicts
    let surplus : Part → Nat → Part := fun q id =>
      if 1 ≤ id ∧ id ≤ 4095 ∧
          ((q.carrier id).state = .free ∨ (q.carrier id).state = .surplus ∨ (q.carrier id).state = .reject) then
        q.setCarrier id
          { q.carrier id with
            state := .surplus, article := c.article,
            net := if (q.carrier id).state = .surplus ∧ c.article ≠ 0 ∧
                Config.surplusKeepsNet id (q.carrier id).article c.article then (q.carrier id).net
              else none }
      else q.count .conflicts
    let disposed : Part → Part → Prop := fun x z =>
      let y := x.call r
      (y.count = 0 → z = x.freeAndOffer takeLaneOut r) ∧
      (0 < y.count → y.expire = true → x.endsShort takeLaneOut r .persistTimeout y.lane z) ∧
      (0 < y.count → y.expire = false → (¬ placed ∨ pkt.u8 9 = 1) → x.goesBack r z) ∧
      (0 < y.count → y.expire = false → placed → pkt.u8 9 = 2 →
        (y.mode = .home → x.endsShort takeLaneOut r .laneEmpty y.lane z) ∧
        (y.mode = .persist → x.goesBack r z) ∧
        (y.mode = .substitute → z = x.moveOn takeLaneOut r))
    c.state = .sent → c.generation = tagHigh (pkt.u16 6) →
    ∃ u v w x t : Part, exec (.answer pkt) s = .next { s with part := t } ∧
      u.Same (((s.part.takeOn .answer pkt).modLane c.lane (fun y =>
        { y with queue := y.queue.filter (· ≠ r), busy := if y.busy = some r then none else y.busy })).modCall r (fun y =>
          { y with answer := .stopped })) ∧
      (pkt.u8 9 = 2 → v = u.setStockOut takeLaneOut c.lane
        { kind := .laneEmpty, bay := c.bay, order := order, article := c.article }) ∧
      (pkt.u8 9 = 1 → v = u.clearStockOut c.lane) ∧
      (placed → w = v.modLane c.lane (fun y => { y with misses := 0 })) ∧ (¬ placed → w = v) ∧
      x = (ids.drop c.sentCount).foldl surplus ((ids.take c.sentCount).foldl credit w) ∧
      (placed → disposed x t) ∧
      (¬ placed → ∃ z, disposed x z ∧ z.takesMiss c.lane c.bay order c.article t)

/-- An Answer that is not current. Stale, its tag naming a record that is neither SENT nor ORPHAN or whose generation
differs: its stock flag is applied to the record's last lane when that lane's node sent it (log entry 43), its FREE, SURPLUS
and REJECT carriers become SURPLUS with no article and no weight, other ids are conflicts, and it is counted as late. Orphan:
the stock flag is applied to the record's lane, the carriers become SURPLUS with the record's article, it is counted as
late, and the record is freed, its bay's orphan count lowered, the drain tested and the record offered. That the weight goes
without an article is log entry 26, the laps a carrier keeps log entry 27, and whether a SURPLUS carrier with a new article
keeps its weight a free value (log entry 25) (R127, R132, R133). -/
def Obligations.StaleAnswersMakeSurplus : Prop :=
  ∀ (s : State) (pkt : Packet), pkt.wf = true → s.part.receives pkt → s.part.mode ≠ .config →
    answerChecks pkt = true →
    let r := tagIndex (pkt.u16 6)
    let c := s.part.call r
    let base := s.part.takeOn .answer pkt
    let ids := (List.range (pkt.u8 10)).map (fun k => pkt.u16 (11 + 2 * k))
    let applied : Nat → Notice → Part → Prop := fun l who v =>
      (pkt.u8 9 = 2 → v = base.setStockOut takeLaneOut l who) ∧ (pkt.u8 9 = 1 → v = base.clearStockOut l)
    let named : Nat → Part → Nat → Part := fun article q id =>
      if 1 ≤ id ∧ id ≤ 4095 ∧
          ((q.carrier id).state = .free ∨ (q.carrier id).state = .surplus ∨ (q.carrier id).state = .reject) then
        q.setCarrier id
          { q.carrier id with
            state := .surplus, article := article,
            net := if (q.carrier id).state = .surplus ∧ article ≠ 0 ∧
                Config.surplusKeepsNet id (q.carrier id).article article then (q.carrier id).net
              else none }
      else q.count .conflicts
    (c.generation ≠ tagHigh (pkt.u16 6) ∨ (c.state ≠ .sent ∧ c.state ≠ .orphan) → ∃ v : Part,
      (c.lastLane ≠ 0 → (s.part.laneDir c.lastLane).node = pkt.src.toNat →
        applied c.lastLane { kind := .laneEmpty } v) ∧
      (c.lastLane = 0 ∨ (s.part.laneDir c.lastLane).node ≠ pkt.src.toNat → v = base) ∧
      exec (.answer pkt) s = .next { s with part := ((ids.foldl (named 0) v).count .lateAnswers) }) ∧
    (c.generation = tagHigh (pkt.u16 6) → c.state = .orphan → ∃ v w t u : Part,
      exec (.answer pkt) s = .next { s with part := t } ∧
      applied c.lane { kind := .laneEmpty, bay := c.bay, article := c.article } v ∧
      w = (ids.foldl (named c.article) v).count .lateAnswers ∧
      u.Same (((w.modLane (w.call r).lane (fun x =>
        { x with queue := x.queue.filter (· ≠ r), busy := if x.busy = some r then none else x.busy })).modCall r (fun y =>
          { generation := (y.generation + 1) % 16, lastLane := y.lastLane })).modBuild (w.call r).bay (fun y =>
            { y with orphans := y.orphans - 1 })) ∧
      t = (u.drainTest takeLaneOut (w.call r).bay).offer takeLaneOut r)

/-- A call opportunity in RUN. At a lane entry the lane's candidate, the first QUEUED record of its queue whose bay is not
held, is sent on an ONLINE lane that is not busy. Where the entry names no lane, or one without a candidate, free selection
takes the first zone in cyclic order from the zone pointer that has credit and a lane with a candidate; where none has both,
and a zone of weight above 0 has a candidate, the credits are reloaded to the weights and the search is made again. Of the
zone's candidates the most urgent build's is sent, then the lower call sequence number, then the lower lane, and a credit is
spent: the pointer stays at the zone, or passes it with its last credit. A full normal queue loses the opportunity. With no
candidate but in zones of weight 0, only the calendar pointer moves (R120, R126, R144 to R150). -/
def Obligations.PitchesSendACall : Prop :=
  ∀ (s : State) (pkt : Packet), s.part.hears pkt → s.part.mode = .run →
    let length := s.part.const 9
    let entry := if s.part.cal.pointer < length then s.part.cal.pointer else 0
    let moved : Part := { s.part.passOn .pitch pkt with
      cal := { s.part.cal with pointer := if entry + 1 < length then entry + 1 else 0 } }
    let named := if length = 0 then 0 else s.part.calendarEntry entry
    let eligible : Nat → Nat → Prop := fun l r =>
      (s.part.call r).state = .queued ∧ (s.part.lane l).online = true ∧ (s.part.lane l).busy = none ∧
        (s.part.build (s.part.call r).bay).holdFlag = false
    let first : Nat → Nat → Prop := fun l r =>
      eligible l r ∧ ∃ before after, (s.part.lane l).queue = before ++ r :: after ∧ ∀ x ∈ before, ¬ eligible l x
    let sends : Nat → Nat → Part → Prop := fun l r p =>
      let c := s.part.call r
      let n := min c.count (s.part.laneDir l).burst
      (48 ≤ s.part.ring.normal.length →
        exec (.pitch pkt) s = .next { s with part := p.count .opportunitiesLost }) ∧
      (s.part.ring.normal.length < 48 → ∃ t, exec (.pitch pkt) s = .next { s with part := t } ∧
        t.Same (((p.posted ⟨.call, (s.part.laneDir l).node, callPayload (callTag r c.generation) c.article n⟩).modLane l
          (fun x => { x with queue := x.queue.filter (· ≠ r), busy := some r })).modCall r (fun x =>
            { x with state := .sent, sentCount := n, lastLane := l, answer := .running (s.part.const 0) })))
    let free : Prop := named = 0 ∨ ∀ x ∈ (s.part.lane named).queue, ¬ eligible named x
    let offers : Zone → Nat → Nat → Prop := fun z l r => 1 ≤ l ∧ l ≤ 255 ∧ (s.part.laneDir l).zone = z ∧ first l r
    let share : List Nat → Zone → Nat := fun credits z =>
      credits.getD (match z with | .ambient => 0 | .chilled => 1 | .fragile => 2 | .bottle => 3) 0
    let found : List Nat → Zone → Prop := fun credits z => ∃ before after,
      (match s.part.cal.zone with
        | .ambient => [Zone.ambient, .chilled, .fragile, .bottle]
        | .chilled => [.chilled, .fragile, .bottle, .ambient]
        | .fragile => [.fragile, .bottle, .ambient, .chilled]
        | .bottle => [.bottle, .ambient, .chilled, .fragile]) = before ++ z :: after ∧
      0 < share credits z ∧ (∃ l r, offers z l r) ∧ ∀ y ∈ before, share credits y = 0 ∨ ∀ l r, ¬ offers y l r
    let goesFirst : Zone → Nat → Nat → Prop := fun z l r => offers z l r ∧ ∀ a x, offers z a x →
      ∃ o o', s.part.orderAt (s.part.call r).bay = some o ∧ s.part.orderAt (s.part.call x).bay = some o' ∧
        (moreUrgent o o' = true ∨
          (moreUrgent o' o = false ∧
            ((s.part.call r).seq.toNat < (s.part.call x).seq.toNat ∨
              ((s.part.call r).seq = (s.part.call x).seq ∧ l ≤ a))))
    let spent : List Nat → Zone → Part := fun credits z =>
      let left := share credits z - 1
      let next : Zone := match z with
        | .ambient => .chilled
        | .chilled => .fragile
        | .fragile => .bottle
        | .bottle => .ambient
      { moved with cal := { moved.cal with
        credits := credits.set (match z with | .ambient => 0 | .chilled => 1 | .fragile => 2 | .bottle => 3) left,
        zone := if left = 0 then next else z } }
    let credits := s.part.cal.credits
    let weights := s.part.tables.weights
    (∀ r, named ≠ 0 → first named r → sends named r moved) ∧
    (free → ∀ z l r, found credits z → goesFirst z l r → sends l r (spent credits z)) ∧
    (free → (∀ z, share credits z = 0 ∨ ∀ l r, ¬ offers z l r) →
      (∀ z l r, found weights z → goesFirst z l r → sends l r (spent weights z)) ∧
      ((∀ z, share weights z = 0 ∨ ∀ l r, ¬ offers z l r) → exec (.pitch pkt) s = .next { s with part := moved }))

/-! ### Carriers -/

/-- STEER_UNDELIVERED and STEER_CONFIRM_TIMEOUT: the STEERED carrier they match loses its record and goes back to
EN_ROUTE, or becomes SURPLUS where the build drains; an undelivered Steer that matches none is counted only. That
without an expired confirm timer nothing happens is log entry 7, and that a carrier keeps its laps when it becomes
SURPLUS is log entry 27. -/
def Obligations.SteersThatEndReleaseTheirRecords : Prop :=
  (∀ (s : State) (pkt : Packet), s.part.ownReturned pkt →
    (∀ b i r x, (s.part.carrier (pkt.u16 6)).state = .steered b i r x → b = pkt.u8 8 →
      (s.part.build b).state = .gathering ∨ (s.part.build b).state = .draining →
      ∃ t, exec (.steerUndelivered pkt) s = .next { s with part := t } ∧
        (s.part.stripCounted .steer).steerEnded (pkt.u16 6) b i r t) ∧
    ((∀ i r x, (s.part.carrier (pkt.u16 6)).state ≠ .steered (pkt.u8 8) i r x) →
      exec (.steerUndelivered pkt) s = .next { s with part := s.part.stripCounted .steer })) ∧
  (∀ (s : State) (c : Nat), s.part.ring.resetHeld = false →
    (∀ b i r, (s.part.carrier c).state = .steered b i r .expired →
      (s.part.build b).state = .gathering ∨ (s.part.build b).state = .draining →
      ∃ t, exec (.steerConfirmTimeout c) s = .next { s with part := t } ∧ s.part.steerEnded c b i r t) ∧
    ((∀ b i r, (s.part.carrier c).state ≠ .steered b i r .expired) → exec (.steerConfirmTimeout c) s = .next s))

/-- Sightings that meet no line: a REJECT carrier becomes FREE at a read of 0 and is otherwise unchanged; a HELD or
RETURNING carrier, and an id that names no carrier, are counted as ignored. -/
def Obligations.SightingsOfRejectAndRestingCarriers : Prop :=
  ∀ (s : State) (pkt : Packet), s.part.hears pkt → s.part.mode ≠ .config →
    let c := pkt.u16 7
    let x := s.part.carrier c
    let base := s.part.passOn .sighting pkt
    (1 ≤ c → c ≤ 4095 → x.state = .reject →
      (pkt.u16 10 = 0 → exec (.sighting pkt) s = .next { s with part := base.setCarrier c {} }) ∧
      (pkt.u16 10 ≠ 0 → exec (.sighting pkt) s = .next { s with part := base })) ∧
    (1 ≤ c → c ≤ 4095 → ((∃ b r role, x.state = .held b r role) ∨ ∃ b r role, x.state = .returning b r role) →
      exec (.sighting pkt) s = .next { s with part := base.count .ignoredSightings }) ∧
    (c = 0 ∨ 4095 < c → exec (.sighting pkt) s = .next { s with part := base.count .ignoredSightings })

/-- A Sighting taken outside CONFIG reaches the carrier it names by the state of its entry. EN_ROUTE: its line's handling. A
STEERED carrier was missed by its diverter: its record is released and it is EN_ROUTE or SURPLUS again, and is handled as
such. FREE and SURPLUS: a read of 0 makes it FREE, an article read makes it SURPLUS with that article, its weight kept only
where the article is the same, and a SURPLUS carrier of a known article is weighed, and becomes REJECT or is offered for a
claim. A line carrier read as empty is lost and becomes FREE, one read as another article becomes SURPLUS with it, both a
MISMATCH, counted and noticed before a call is sought (log entry 22); one that was not read only has its lap counted (R157,
R161 to R165; the laps a carrier keeps are log entry 27). -/
def Obligations.SightingsFollowTheEntry : Prop :=
  (∀ (s : State) (pkt : Packet), s.part.hears pkt → s.part.mode ≠ .config →
    let c := pkt.u16 7
    let g : Sight := ⟨pkt.u8 6, c, pkt.u8 9, pkt.u16 10, pkt.u16 12⟩
    let base := s.part.passOn .sighting pkt
    1 ≤ c → c ≤ 4095 →
    (∀ b i, (s.part.carrier c).state = .enRoute b i →
      exec (.sighting pkt) s = .next { s with part := base.sightLine takeLaneOut c b i g }) ∧
    ((s.part.carrier c).state = .free ∨ (s.part.carrier c).state = .surplus →
      exec (.sighting pkt) s = .next { s with part := base.sightLoose takeLaneOut c g }) ∧
    (∀ b i r x, (s.part.carrier c).state = .steered b i r x →
      (s.part.build b).state = .gathering ∨ (s.part.build b).state = .draining →
      ∃ u t : Part, exec (.sighting pkt) s = .next { s with part := t } ∧ base.steerEnded c b i r u ∧
        ((u.carrier c).state = .enRoute b i → t = u.sightLine takeLaneOut c b i g) ∧
        ((u.carrier c).state = .surplus → t = u.sightLoose takeLaneOut c g))) ∧
  (∀ (p : Part) (c b i : Nat) (g : Sight), (p.carrier c).state = .enRoute b i →
    let t := p.sightLine takeLaneOut c b i g
    (g.read = 0 → p.withdrawn c b i {} .mismatches .mismatch t) ∧
    (1 ≤ g.read → g.read ≤ 8191 → g.read ≠ (p.carrier c).article →
      p.withdrawn c b i { state := .surplus, article := g.read } .mismatches .mismatch t) ∧
    (8191 < g.read → p.lapCounted c b i g.arch t)) ∧
  (∀ (p : Part) (c : Nat) (g : Sight), (p.carrier c).state = .free ∨ (p.carrier c).state = .surplus →
    let x := p.carrier c
    let t := p.sightLoose takeLaneOut c g
    (g.read = 0 → t.Same (p.setCarrier c {})) ∧
    (1 ≤ g.read → g.read ≤ 8191 → ∃ u : Part,
      u.Same (p.setCarrier c
        { x with state := .surplus, article := g.read, net := if g.read = x.article then x.net else none }) ∧
      t = u.sightSurplus takeLaneOut c g) ∧
    (8191 < g.read → (x.state = .free → t = p) ∧ (x.state = .surplus → t = p.sightSurplus takeLaneOut c g))) ∧
  (∀ (p : Part) (c : Nat) (g : Sight), (p.carrier c).state = .surplus →
    let x := p.carrier c
    let a := p.article x.article
    let tare := p.tare g.ctype
    let net := g.gross - tare
    let A := a.nominal * a.tolerance / 64 + p.const 8
    let seen := if g.gross < tare then p.count .lightReadings else p
    let weighed := g.arch ≠ 0 ∧ p.scale g.arch = true ∧ g.gross ≠ 65535 ∧ g.ctype ≤ 3 ∧ a.valid = true
    let inside := (if A < a.nominal then a.nominal - A else 0) ≤ net ∧ net ≤ a.nominal + A
    let t := p.sightSurplus takeLaneOut c g
    (x.article = 0 → t = p) ∧
    (x.article ≠ 0 → ¬ weighed → t = p.claim takeLaneOut c g) ∧
    (x.article ≠ 0 → weighed → ¬ inside →
      t.Same ((seen.setCarrier c { x with state := .reject, net := none }).count .weightFails)) ∧
    (x.article ≠ 0 → weighed → inside → ∃ u : Part, u.Same (seen.setCarrier c { x with net := some net }) ∧
      t = u.claim takeLaneOut c g))

/-- A Sighting that reads the article of a line carrier. Not weighed, without a scale, a reading, a known carrier type or a
valid article, it goes on. Weighed, a reading below the tare counts as light and weighs as 0; a net inside the article's
band, both ends in it, is stored and moves the committed weight by its difference from what the carrier counted; a net
outside withdraws the carrier as REJECT: a weight failure, counted and noticed before the call is sought (log entry 22). What
goes on counts its lap at the lap arch and, still on its line, makes a steering attempt at its bay's steering arch (R158,
R159, R161 to R163). -/
def Obligations.SightingsWeighLineCarriers : Prop :=
  ∀ (p : Part) (c b i : Nat) (g : Sight), (p.carrier c).state = .enRoute b i →
    g.read = (p.carrier c).article → 1 ≤ g.read → g.read ≤ 8191 →
    let x := p.carrier c
    let a := p.article x.article
    let tare := p.tare g.ctype
    let net := g.gross - tare
    let A := a.nominal * a.tolerance / 64 + p.const 8
    let old := match x.net with | some n => n | none => a.nominal
    let seen := if g.gross < tare then p.count .lightReadings else p
    let weighed := g.arch ≠ 0 ∧ p.scale g.arch = true ∧ g.gross ≠ 65535 ∧ g.ctype ≤ 3 ∧ a.valid = true
    let inside := (if A < a.nominal then a.nominal - A else 0) ≤ net ∧ net ≤ a.nominal + A
    let t := p.sightLine takeLaneOut c b i g
    (¬ weighed → p.carriesOn c b i g.arch t) ∧
    (weighed → inside → ∃ u : Part,
      u.Same ((seen.modBuild b (fun y => { y with committed := y.committed + net - old })).setCarrier c
        { x with net := some net }) ∧
      u.carriesOn c b i g.arch t) ∧
    (weighed → ¬ inside → seen.withdrawn c b i { state := .reject, article := x.article } .weightFails .weightFail t)

/-- A SURPLUS carrier at a Sighting is claimed by a line of a GATHERING build that is not held and whose bay accepts the
article: the line has uncalled units, the article is its current one and the ceiling holds the carrier's weight; or else it
has a QUEUED call of that article, the one with the highest sequence number, and the ceiling holds the weight in place of the
call's nominal. The most urgent build takes it, the lower bay where the key leaves two equal, and in it the lowest line: the
carrier is EN_ROUTE for the line with 0 laps and its unit and weight move; a call left without units is freed and offered
first (log entry 35). At the bay's steering arch a read of the article makes a steering attempt at once. With no such line,
or with an article that is not valid, nothing changes (R141, R167, R168). -/
def Obligations.SurplusCarriersAreClaimed : Prop :=
  ∀ (p : Part) (c : Nat) (g : Sight), (p.carrier c).state = .surplus → Map.rising p.calls.recs = true →
    (∀ b o, p.orderAt b = some o → Map.rising o.lines = true) →
    let x := p.carrier c
    let a := x.article
    let w := match x.net with | some n => n | none => (p.article a).nominal
    let t := p.claim takeLaneOut c g
    let admits : Nat → Order → Prop := fun b o => (p.article a).valid = true ∧ 1 ≤ b ∧ b ≤ 64 ∧
      (p.build b).state = .gathering ∧ (p.build b).holdFlag = false ∧
      inZones (p.bayDir b).zones (p.article a).zone = true ∧ p.orderAt b = some o
    let fromUncalled : Nat → Nat → Order → Prop := fun b i o => admits b o ∧ ∃ l, Map.find? o.lines i = some l ∧
      0 < l.uncalled ∧ (p.build b).committed + w ≤ o.ceiling ∧
      (if l.mode = .substitute then p.memberArticle l.article l.member else some l.article) = some a
    let calls : Nat → Nat → Nat → Prop := fun b i r => (p.call r).state = .queued ∧ (p.call r).bay = b ∧
      (p.call r).line = i ∧ (p.call r).article = a ∧ 0 < (p.call r).count
    let fromCall : Nat → Nat → Order → Nat → Prop := fun b i o r => admits b o ∧ (Map.find? o.lines i).isSome = true ∧
      ¬ fromUncalled b i o ∧ calls b i r ∧ (p.build b).committed + w ≤ o.ceiling + (p.call r).nominal ∧
      ∀ r', calls b i r' → (p.call r').seq.toNat < (p.call r).seq.toNat ∨ ((p.call r').seq = (p.call r).seq ∧ r ≤ r')
    let offers : Nat → Nat → Order → Prop := fun b i o => fromUncalled b i o ∨ ∃ r, fromCall b i o r
    let first : Nat → Nat → Order → Prop := fun b i o => ∀ b' i' o', offers b' i' o' →
      moreUrgent o' o = false ∧ (moreUrgent o o' = false → b ≤ b') ∧ (b' = b → i ≤ i')
    let attempts : Nat → Nat → Part → Prop := fun b i v =>
      (g.arch ≠ 0 → (p.bayDir b).arch = g.arch → g.read = a → 1 ≤ a → a ≤ 8191 → t = v.steerAttempt takeLaneOut c b i) ∧
      (g.arch = 0 ∨ (p.bayDir b).arch ≠ g.arch ∨ g.read ≠ a → t = v)
    ((∀ b i o, ¬ offers b i o) → t = p) ∧
    (∀ b i o, first b i o →
      let taken := p.setCarrier c { x with state := .enRoute b i, laps := 0 }
      (fromUncalled b i o → ∃ v : Part, attempts b i v ∧
        v.Same ((taken.modLine b i (fun l => { l with uncalled := l.uncalled - 1, enRoute := l.enRoute + 1 })).modBuild b
          (fun y => { y with committed := y.committed + w }))) ∧
      (∀ r, fromCall b i o r → ∃ u v : Part, attempts b i v ∧
        (1 < (p.call r).count → u.Same (taken.modCall r (fun k => { k with count := k.count - 1 }))) ∧
        ((p.call r).count = 1 →
          u = (taken.modCall r (fun k => { k with count := k.count - 1 })).freeAndOffer takeLaneOut r) ∧
        v.Same ((u.modLine b i (fun l =>
          { l with outstanding := l.outstanding - 1, enRoute := l.enRoute + 1 })).modBuild b (fun y =>
            { y with committed := y.committed + w - (p.call r).nominal }))))

/-- A steering attempt for a carrier EN_ROUTE to a bay: withheld uncounted under a hold or block; withheld and counted at a
full spur (at or above its capacity, log entry 38) and at an exhausted pool, which raises POOL_EMPTY when armed; otherwise
the head record is reserved, a Steer joins the urgent queue, and the carrier is STEERED with its confirm timer. A full urgent
queue gives the record back, which arms the pool again (log entry 36), and is counted (R103, R106, R111, R169, R170). -/
def Obligations.SteeringAttempts : Prop :=
  ∀ (p : Part) (c b i : Nat), (p.carrier c).state = .enRoute b i →
    let x := p.carrier c
    let y := p.build b
    let t := p.steerAttempt takeLaneOut c b i
    (y.holdFlag = true ∨ y.blocked = true → t = p) ∧
    (y.holdFlag = false → y.blocked = false →
      ((p.bayDir b).spur ≤ y.hold.length + y.reserved → t = p.count .withheldSpur) ∧
      (y.hold.length + y.reserved < (p.bayDir b).spur → p.pool.free = [] →
        (p.pool.armed = false → t = p.count .withheldPool) ∧
        (p.pool.armed = true →
          t = (Part.raise takeLaneOut { kind := .poolEmpty, bay := b, order := y.order, article := x.article }
            { p with pool := { p.pool with armed := false } }).count .withheldPool)) ∧
      (∀ r rest, y.hold.length + y.reserved < (p.bayDir b).spur → p.pool.free = r :: rest →
        (p.ring.urgent.length < 16 →
          t.Same (({ p with
            ring := { p.ring with
              urgent := p.ring.urgent ++ [(⟨.steer, (p.bayDir b).diverter, steerPayload c b⟩ : Post)] },
            pool := { p.pool with free := rest, recs := Map.set {} p.pool.recs r { carrier := c } }
            }.modBuild b (fun z => { z with reserved := z.reserved + 1 })).setCarrier c
              { x with state := .steered b i r (.running (p.const 4)) })) ∧
        (16 ≤ p.ring.urgent.length →
          t.Same (Part.count .withheldQueue { p with
            pool := { free := r :: rest, recs := Map.set {} p.pool.recs r {}, armed := true } }))))

/-- ARRIVED. A carrier STEERED to the reporting bay is listed on its reserved record. One EN_ROUTE to it is listed on the
record at the head of the free list; refused it, because the spur is full or the pool empty, it strays from its line and
arrives foreign. A carrier of another bay is first separated from it: one EN_ROUTE strays; one STEERED loses its reservation
and strays where that build gathers, or becomes SURPLUS with the drain tested where it drains (its laps: log entry 27). It
then arrives foreign, as a FREE, SURPLUS or REJECT carrier does: recorded as FOREIGN and returned, or, with no place or no
record, unrecorded with its two counters, FOREIGN raised and one RETURN. The spur is full at or above its capacity (log entry
38); a released record sets the arming flag (log entry 36) (R87, R88, R104 to R106, R111, R162, R172 to R174). -/
def Obligations.ArrivalsFillAHoldRecord : Prop :=
  ∀ (s : State) (pkt : Packet) (b : Nat), s.part.receivesReport .arrived pkt b →
    let c := pkt.u16 7
    let x := s.part.carrier c
    let y := s.part.build b
    let spur := (s.part.bayDir b).spur
    let base := s.part.takeOn .bayReport pkt
    let arrives : (Part → Prop) → Prop := fun ends =>
      ∃ t, exec (.arrived pkt) s = .next { s with part := t } ∧ ends t
    1 ≤ c → c ≤ 4095 →
      (∀ i r timer, x.state = .steered b i r timer →
        arrives ((base.modBuild b (fun z => { z with reserved := z.reserved - 1 })).listsLine c b i r)) ∧
      (∀ i, x.state = .enRoute b i →
        (∀ r rest, y.hold.length + y.reserved < spur → s.part.pool.free = r :: rest →
          arrives ({ base with pool := { s.part.pool with free := rest } }.listsLine c b i r)) ∧
        (spur ≤ y.hold.length + y.reserved →
          arrives (fun t => ∃ u, base.strays c b i u ∧ u.meetsForeign c b t)) ∧
        (y.hold.length + y.reserved < spur → s.part.pool.free = [] →
          arrives (fun t => ∃ u v, base.runsDry b x.article u ∧ u.strays c b i v ∧ v.meetsForeign c b t))) ∧
      (∀ a i, x.state = .enRoute a i → a ≠ b →
        arrives (fun t => ∃ u, base.strays c a i u ∧ u.meetsForeign c b t)) ∧
      (∀ a i r timer, x.state = .steered a i r timer → a ≠ b →
        let released := { base with pool :=
          { free := r :: s.part.pool.free, recs := Map.set {} s.part.pool.recs r {}, armed := true } }.modBuild a
            (fun z => { z with reserved := z.reserved - 1 })
        ((s.part.build a).state = .gathering →
          arrives (fun t => ∃ u, released.strays c a i u ∧ u.meetsForeign c b t)) ∧
        ((s.part.build a).state = .draining →
          arrives (fun t => ∃ u : Part, u.Same (released.setCarrier c { x with state := .surplus }) ∧
            (u.drainTest takeLaneOut a).meetsForeign c b t))) ∧
      (x.state = .free ∨ x.state = .surplus ∨ x.state = .reject → arrives (base.meetsForeign c b))

/-- DEPARTED of a carrier RETURNING for the reporting bay: a LINE carrier becomes SURPLUS, or REJECT when its record is
chill-expired, a FOREIGN one takes its prior state; the record is unlinked and returns to the head of the free list, the
foreign count falls for a FOREIGN one, and the completion and drain tests are made. -/
def Obligations.DeparturesFreeTheRecord : Prop :=
  ∀ (s : State) (pkt : Packet) (b r : Nat) (role : CarrierRole), s.part.receivesReport .departed pkt b →
    let c := pkt.u16 7
    let x := s.part.carrier c
    1 ≤ c → c ≤ 4095 → x.state = .returning b r role →
      let entry : Carrier :=
        match role with
        | .line _ =>
          if (s.part.holdRec r).chillExpired then { state := .reject, article := (s.part.holdRec r).article }
          else { state := .surplus, article := x.article, net := x.net }
        | .foreign .free => {}
        | .foreign .surplus => { state := .surplus, article := x.article, net := x.net }
        | .foreign .reject => { state := .reject, article := x.article, net := x.net }
      ∃ t u : Part, exec (.departed pkt) s = .next { s with part := t } ∧
        u.Same ((Part.modBuild b (fun y =>
          { y with hold := y.hold.filter (· ≠ r),
                   foreigns := match role with | .line _ => y.foreigns | .foreign _ => y.foreigns - 1 })
          { s.part.takeOn .bayReport pkt with pool :=
            { free := r :: s.part.pool.free, recs := Map.set {} s.part.pool.recs r {}, armed := true } }).setCarrier c
              entry) ∧
        t = (u.completionTest takeLaneOut b).drainTest takeLaneOut b

/-! ### Reports that change nothing -/

/-- A CLEARED report from an in-service bay whose build is not in CLEARING is counted as unmatched and changes
nothing. A Bay Report from the bay node of no in-service bay, ARRIVED of a HELD or RETURNING carrier, DEPARTED of a
carrier not RETURNING for the bay, either of them with an id that names no carrier, and a step report whose tag does
not name the step awaited with bit 11 clear, are counted as unmatched and change nothing. -/
def Obligations.UnmatchedReportsAreCounted : Prop :=
  (∀ (s : State) (pkt : Packet) (b : Nat), s.part.receivesReport .cleared pkt b → (s.part.build b).state ≠ .clearing →
     exec (.cleared pkt) s = .next { s with part := (s.part.takeOn .bayReport pkt).count .unmatched }) ∧
  ((∀ (s : State) (i : Instr) (pkt : Packet), i.wf = true → received i = some (.bayReport, pkt) →
     s.part.mode ≠ .config → s.part.receives pkt → s.part.reportBay pkt.src.toNat = none →
     exec i s = .next { s with part := (s.part.takeOn .bayReport pkt).count .unmatched }) ∧
   (∀ (s : State) (pkt : Packet) (b : Nat),
     let counted : Part := (s.part.takeOn .bayReport pkt).count .unmatched
     let c := pkt.u16 7
     let x := (s.part.carrier c).state
     let tag := pkt.u16 7
     let y := s.part.build b
     let stale : Prop := y.state ≠ .finishing ∨ y.stepTimer = .stopped ∨ tag / 4096 ≠ y.epoch ∨
       tag % 2048 ≠ y.pointer ∨ tag / 2048 % 2 = 1
     (s.part.receivesReport .arrived pkt b →
       (c = 0 ∨ 4095 < c ∨ (∃ a r role, x = .held a r role) ∨ ∃ a r role, x = .returning a r role) →
       exec (.arrived pkt) s = .next { s with part := counted }) ∧
     (s.part.receivesReport .departed pkt b → (c = 0 ∨ 4095 < c ∨ ∀ r role, x ≠ .returning b r role) →
       exec (.departed pkt) s = .next { s with part := counted }) ∧
     (s.part.receivesReport .stepDone pkt b → stale → exec (.stepDone pkt) s = .next { s with part := counted }) ∧
     (s.part.receivesReport .stepRefused pkt b → stale →
       exec (.stepRefused pkt) s = .next { s with part := counted }) ∧
     (s.part.receivesReport .stepFault pkt b → stale → exec (.stepFault pkt) s = .next { s with part := counted })))

/-! ### The Finish Sequencer -/

/-- What walks a finish list on: a matching STEP_DONE, a matching STEP_REFUSED of a CONTINUE step, the wait timer's
expiry, and FINISH_RESUME and FINISH_SKIP of a stopped build whose pointer lies in its style's finish list. Each
executes the step then at the pointer; the reply to a request shows the build after it. WAIT_TIMEOUT without an
expired wait timer does nothing (log entry 7), and the reply's entry stands before the frames the walk posts (log
entry 16). -/
def Obligations.WalksGoOnFromTheirPointer : Prop :=
  (∀ (s : State) (pkt : Packet) (b : Nat),
    let y := s.part.build b
    let tag := pkt.u16 7
    let advanced : Part := (s.part.takeOn .bayReport pkt).modBuild b (fun z =>
      { z with stepTimer := .stopped, pointer := min 2048 (z.pointer + 1) })
    y.state = .finishing → y.stepTimer ≠ .stopped → tag / 4096 = y.epoch → tag % 2048 = y.pointer →
      tag / 2048 % 2 = 0 →
      (s.part.receivesReport .stepDone pkt b → ∃ t u : Part, exec (.stepDone pkt) s = .next { s with part := t } ∧
        u.Same advanced ∧ u.walks b t) ∧
      (∀ code parameter, s.part.receivesReport .stepRefused pkt b →
        s.part.step y.pointer = .action true code parameter →
        ∃ t u : Part, exec (.stepRefused pkt) s = .next { s with part := t } ∧ u.Same advanced ∧ u.walks b t)) ∧
  (∀ (s : State) (b : Nat), s.part.ring.resetHeld = false → (s.part.build b).state = .finishing →
    ((s.part.build b).waitTimer = .expired → ∃ t u : Part, exec (.waitTimeout b) s = .next { s with part := t } ∧
      u.Same (s.part.modBuild b (fun z => { z with waitTimer := .stopped, pointer := min 2048 (z.pointer + 1) })) ∧
      u.walks b t) ∧
    ((s.part.build b).waitTimer ≠ .expired → exec (.waitTimeout b) s = .next s)) ∧
  (∀ (s : State) (pkt : Packet) (skip : Bool),
    let b := pkt.u8 8
    let y := s.part.build b
    let style := s.part.styleAt b
    let start := s.part.styleStart style
    let listed := start ≤ y.pointer ∧ y.pointer < 2048 ∧
      ∀ j, start ≤ j → j < y.pointer → s.part.step j ≠ .finish
    let i := if skip then Instr.finishSkip pkt else Instr.finishResume pkt
    s.part.receivesRequest (if skip then .finishSkip else .finishResume) pkt →
      (b = 0 ∨ 64 < b → exec i s = .next { s with part := s.part.replied pkt .badIndex [] }) ∧
      (1 ≤ b → b ≤ 64 → y.state ≠ .finishStopped ∨ ¬ listed →
        exec i s = .next { s with part := s.part.replied pkt .badState [] }) ∧
      (1 ≤ b → b ≤ 64 → y.state = .finishStopped → listed → ∃ t u : Part,
        exec i s = .next { s with part := (t.withReply s.part pkt .ok
          (b8 (t.build b).state.code ++ b16 (t.build b).pointer ++ b8 (t.build b).stopCause.code)) } ∧
        u.Same (((s.part.replied pkt .ok []).modBuild b (fun z =>
          { z with state := .finishing, stopCause := .none,
                   pointer := if skip then min 2048 (z.pointer + 1) else z.pointer })).modUseCount style
            (fun n => if style = 0 then n else n + 1)) ∧
        u.walks b t))

/-- What stops a walk: a matching STEP_FAULT, a matching STEP_REFUSED of a step that is not CONTINUE, the step timer's
expiry, and the undelivered STEP that is awaited. STEP_TIMEOUT without an expired step timer does nothing (log entry
7), and a matching STEP_REFUSED of a step that is no longer an ACTION stops the walk (log entry 44). -/
def Obligations.WalksStopWithTheirCause : Prop :=
  (∀ (s : State) (pkt : Packet) (b : Nat),
    let y := s.part.build b
    let tag := pkt.u16 7
    y.state = .finishing → y.stepTimer ≠ .stopped → tag / 4096 = y.epoch → tag % 2048 = y.pointer →
      (tag / 2048 % 2 = 0 → s.part.receivesReport .stepFault pkt b →
        ∃ t, exec (.stepFault pkt) s = .next { s with part := t } ∧ (s.part.takeOn .bayReport pkt).stops b .fault t) ∧
      (tag / 2048 % 2 = 0 → s.part.receivesReport .stepRefused pkt b →
        (∀ code parameter, s.part.step y.pointer ≠ .action true code parameter) →
        ∃ t, exec (.stepRefused pkt) s = .next { s with part := t } ∧
          (s.part.takeOn .bayReport pkt).stops b .refused t) ∧
      (s.part.ownReturned pkt → s.part.bayOfNode pkt.dst.toNat = some b → pkt.u8 6 = 1 →
        ∃ t, exec (.bayCommandUndelivered pkt) s = .next { s with part := t } ∧
          (s.part.stripCounted .bayCommand).stops b .fault t)) ∧
  (∀ (s : State) (b : Nat), s.part.ring.resetHeld = false → (s.part.build b).state = .finishing →
    ((s.part.build b).stepTimer = .expired → ∃ t, exec (.stepTimeout b) s = .next { s with part := t } ∧
      s.part.stops b .timeout t) ∧
    ((s.part.build b).stepTimer ≠ .expired → exec (.stepTimeout b) s = .next s))

/-! ### Builds and bays -/

/-- The completion test passes a GATHERING build whose lines are all settled, with no FOREIGN record and no LINE record
marked for return: its dwell timer stops, and it goes to SHORT_HOLD with a notice when a line is short and the order is not
tolerant, to release when its style is 0, and otherwise to FINISHING at its style's start index. The end-of-drain test
passes a DRAINING build without hold records, reservations and orphans: it leaves service when that is pending, and
otherwise becomes IDLE and its bay meets the binding arbiter. A test that does not pass changes nothing (R80 to R83, R96). -/
def Obligations.CompletionAndDrainTestsEndABuild : Prop :=
  (∀ (p : Part) (b : Nat),
    let passes : Order → Prop := fun o => p.orderAt b = some o ∧ (p.build b).state = .gathering ∧
      (∀ i l, (i, l) ∈ o.lines → l.enRoute = 0 ∧ l.outstanding = 0 ∧ l.uncalled = 0) ∧ (p.build b).foreigns = 0 ∧
      ∀ r ∈ (p.build b).hold, (p.holdRec r).isLine = true → (p.holdRec r).mark = .none
    let t := p.completionTest takeLaneOut b
    ((∀ o, ¬ passes o) → t = p) ∧
    (∀ o, passes o →
      let short := ∃ i l, (i, l) ∈ o.lines ∧ 0 < l.short
      let rested := p.modBuild b (fun y => { y with dwell := .stopped })
      (short → o.tolerant = false → ∃ u : Part,
        u.Same (p.modBuild b (fun y => { y with dwell := .stopped, state := .shortHold })) ∧
        t = u.raise takeLaneOut { kind := .shortHold, bay := b, order := (p.build b).order }) ∧
      (¬ short ∨ o.tolerant = true → o.style = 0 → rested.releases b t) ∧
      (¬ short ∨ o.tolerant = true → o.style ≠ 0 → ∃ u : Part,
        u.Same ((rested.modBuild b (fun y =>
          { y with state := .finishing, pointer := p.styleStart o.style, stopCause := .none })).modUseCount o.style
            (fun n => n + 1)) ∧
        u.walks b t))) ∧
  (∀ (p : Part) (b : Nat),
    let y := p.build b
    let ended := y.state = .draining ∧ y.hold = [] ∧ y.reserved = 0 ∧ y.orphans = 0
    (¬ ended → p.drainTest takeLaneOut b = p) ∧
    (ended → y.pendingOut = true → (p.drainTest takeLaneOut b).Same (p.modBuild b (fun z =>
      { z with state := .outOfService, pending := [], pendingOut := false }))) ∧
    (ended → y.pendingOut = false → ∃ u : Part,
      u.Same (p.modBuild b (fun z => { z with state := .idle, pending := [] })) ∧
      p.drainTest takeLaneOut b = u.bindingEvent takeLaneOut [b]))

/-- CLEARED in CLEARING: a packed count other than the pack count is counted; the hold list goes, in its order, onto the
head of the free list, its records take their FREE values and its carriers become FREE; the order becomes DONE, or
DONE_SHORT when a line is short; DONE is raised; the build becomes IDLE without order, and its bay meets the binding
arbiter. -/
def Obligations.ClearingsEndTheBuild : Prop :=
  ∀ (s : State) (pkt : Packet) (b : Nat), s.part.receivesReport .cleared pkt b → (s.part.build b).state = .clearing →
    let y := s.part.build b
    let pack := (y.hold.filter (fun r => (s.part.holdRec r).isLine && (s.part.holdRec r).mark = .none)).length
    let base := s.part.takeOn .bayReport pkt
    let base := if pack = pkt.u8 9 then base else base.count .packedDifferences
    ∃ t u : Part, exec (.cleared pkt) s = .next { s with part := t } ∧
      u = { base with
        pool := { u.pool with free := y.hold ++ s.part.pool.free, armed := s.part.pool.armed || decide (y.hold ≠ []) },
        carriers := u.carriers, builds := u.builds, book := { s.part.book with orders := u.book.orders } } ∧
      (∀ r, u.holdRec r = if r ∈ y.hold then {} else s.part.holdRec r) ∧
      (∀ c, u.carrier c = if c ∈ y.hold.map (fun r => (s.part.holdRec r).carrier) then {} else s.part.carrier c) ∧
      (∀ a, u.build a =
        if a = b then { y with hold := [], foreigns := 0, chilledHeld := 0, pending := [] } else s.part.build a) ∧
      (∀ n, u.order? n = (s.part.order? n).map (fun o =>
        if n = y.order then
          { o with state := if ∃ kv ∈ o.lines, 0 < (Prod.snd kv).short then .doneShort else .done }
        else o)) ∧
      t = ((u.raise takeLaneOut { kind := .done, bay := b, order := y.order }).modBuild b (fun z =>
        { z with state := .idle, order := 0, committed := 0, pointer := 0, stepTimer := .stopped,
                 waitTimer := .stopped, stopCause := .none, heldStep := none })).bindingEvent takeLaneOut [b]

/-- BLOCKED sets and UNBLOCKED clears a bay's blocked flag and nothing else; BAY_HOLD makes its checks and sets or clears the
hold flag, and clearing a flag that was set at an IDLE build is a binding event. BAY_SERVICE makes its checks; into service an
OUT_OF_SERVICE bay whose table entry is complete becomes IDLE, a binding event; out of service an IDLE build without hold
records leaves; at a DRAINING build each direction sets the pending-out mark. The reply's data are read before the binding
(log entry 16). R73 names the hold flag and the build state in the BAY_HOLD reply without byte positions; their order is the
model's choice (log entry 45) (R64, R71 to R73, R75). -/
def Obligations.BayFlagsAndServiceAreSet : Prop :=
  (∀ (s : State) (pkt : Packet) (b : Nat),
    (s.part.receivesReport .blocked pkt b → exec (.blocked pkt) s = .next { s with part :=
      ((s.part.takeOn .bayReport pkt).modBuild b (fun y => { y with blocked := true })) }) ∧
    (s.part.receivesReport .unblocked pkt b → exec (.unblocked pkt) s = .next { s with part :=
      ((s.part.takeOn .bayReport pkt).modBuild b (fun y => { y with blocked := false })) })) ∧
  (∀ (s : State) (pkt : Packet), s.part.receivesRequest .bayHold pkt →
    let b := pkt.u8 8
    let y := s.part.build b
    let u := (s.part.replied pkt .ok []).modBuild b (fun z => { z with holdFlag := decide (pkt.u8 9 = 1) })
    (b = 0 ∨ 64 < b → exec (.bayHold pkt) s = .next { s with part := s.part.replied pkt .badIndex [] }) ∧
    (1 ≤ b → b ≤ 64 → 1 < pkt.u8 9 →
      exec (.bayHold pkt) s = .next { s with part := s.part.replied pkt .badValue [] }) ∧
    (1 ≤ b → b ≤ 64 → pkt.u8 9 ≤ 1 → exec (.bayHold pkt) s = .next { s with part :=
      ((if pkt.u8 9 = 0 ∧ y.holdFlag = true ∧ y.state = .idle then u.bindingEvent takeLaneOut [b] else u).withReply s.part
        pkt .ok (b8 (pkt.u8 9) ++ b8 y.state.code)) })) ∧
  (∀ (s : State) (pkt : Packet), s.part.receivesRequest .bayService pkt →
    let b := pkt.u8 8
    let y := s.part.build b
    let d := s.part.bayDir b
    let data : BuildState → Bool → List Byte := fun state out => b8 state.code ++ b8 (if out then 1 else 0)
    let runs : Part → Prop := fun p => exec (.bayService pkt) s = .next { s with part := p }
    (b = 0 ∨ 64 < b → runs (s.part.replied pkt .badIndex [])) ∧
    (1 ≤ b → b ≤ 64 →
      (1 < pkt.u8 9 → runs (s.part.replied pkt .badValue [])) ∧
      (pkt.u8 9 = 1 →
        (y.state = .outOfService → (d.diverter = 0 ∨ d.bayNode = 0 ∨ d.arch = 0) →
          runs (s.part.replied pkt .badValue [])) ∧
        (y.state = .outOfService → d.diverter ≠ 0 → d.bayNode ≠ 0 → d.arch ≠ 0 →
          runs ((((s.part.replied pkt .ok []).modBuild b (fun z => { z with state := .idle })).bindingEvent takeLaneOut
            [b]).withReply s.part pkt .ok (data .idle y.pendingOut))) ∧
        (y.state = .draining →
          runs ((s.part.modBuild b (fun z => { z with pendingOut := false })).replied pkt .ok (data .draining false))) ∧
        (y.state ≠ .outOfService → y.state ≠ .draining →
          runs (s.part.replied pkt .ok (data y.state y.pendingOut)))) ∧
      (pkt.u8 9 = 0 →
        (y.state = .idle → y.hold = [] →
          runs ((s.part.modBuild b (fun z => { z with state := .outOfService })).replied pkt .ok
            (data .outOfService y.pendingOut))) ∧
        (y.state = .idle → y.hold ≠ [] → runs (s.part.replied pkt .badState [])) ∧
        (y.state = .outOfService → runs (s.part.replied pkt .ok (data .outOfService y.pendingOut))) ∧
        (y.state = .draining →
          runs ((s.part.modBuild b (fun z => { z with pendingOut := true })).replied pkt .ok (data .draining true))) ∧
        (y.state ≠ .idle → y.state ≠ .outOfService → y.state ≠ .draining →
          runs (s.part.replied pkt .badState [])))))

/-- CHILL_EXPIRY of a GATHERING build: every chilled LINE record of the hold list not yet marked is marked WANTED and
chill-expired, its unit goes back from held to uncalled, its weight and count leave the build, and the expiry is
counted and noticed. At the chill retry limit the build is aborted: the order becomes FAILED with its lines as they are, the
build DRAINING without order and with its finish fields idle, the work is handed over as AbortsHandOverTheWork says, and
BUILD_FAILED is raised last, naming the order (log entry 23). Below the limit the RETURN frames are posted, calls are sought
in ascending line index, and the completion test is made. Without an expired dwell timer nothing happens (log entry 7) (R68,
R90, R91, R93, R94). -/
def Obligations.ChillExpiriesReturnTheChilledRecords : Prop :=
  ∀ (s : State) (b : Nat), s.part.ring.resetHeld = false →
    let y := s.part.build b
    let chosen := y.hold.filter (fun r =>
      (s.part.holdRec r).isLine && (s.part.holdRec r).chilled && (s.part.holdRec r).mark = .none)
    let units := fun i => (chosen.filter (fun r => (s.part.holdRec r).role = .line i)).length
    (y.dwell ≠ .expired → exec (.chillExpiry b) s = .next s) ∧
    (y.dwell = .expired → y.state = .gathering → y.hold.Nodup → ∃ t u : Part,
      exec (.chillExpiry b) s = .next { s with part := t } ∧
      u = { s.part with pool := { s.part.pool with recs := u.pool.recs }, builds := u.builds,
                        book := { s.part.book with orders := u.book.orders } } ∧
      (∀ r, u.holdRec r =
        if r ∈ chosen then { s.part.holdRec r with mark := .wanted, chillExpired := true } else s.part.holdRec r) ∧
      (∀ a, u.build a =
        if a = b then
          { y with dwell := .stopped, chillCount := min 15 (y.chillCount + 1),
                   committed := y.committed - (chosen.map (fun r => (s.part.holdRec r).weight)).sum,
                   chilledHeld := y.chilledHeld - chosen.length }
        else s.part.build a) ∧
      (∀ n, n ≠ y.order → u.order? n = s.part.order? n) ∧
      (∀ o, s.part.order? y.order = some o → ∃ lines, u.order? y.order = some { o with lines := lines } ∧
        ∀ i, Map.find? lines i = (Map.find? o.lines i).map (fun l =>
          { l with held := l.held - units i, uncalled := l.uncalled + units i })) ∧
      let noticed := u.raise takeLaneOut { kind := .chillExpiry, bay := b, order := y.order }
      (s.part.const 6 ≤ min 15 (y.chillCount + 1) →
        t = (((noticed.modOrder y.order (fun o => { o with state := .failed })).modBuild b (fun z =>
          { z with state := .draining, order := 0, committed := 0, dwell := .stopped, chilledHeld := 0, pointer := 0,
                   stepTimer := .stopped, waitTimer := .stopped, stopCause := .none, heldStep := none })).handOver
            takeLaneOut b).raise takeLaneOut { kind := .buildFailed, bay := b, order := y.order }) ∧
      (min 15 (y.chillCount + 1) < s.part.const 6 →
        t = (((List.range 16).filter (fun i => decide (0 < units i))).foldl (fun q i => q.request takeLaneOut b i)
          (noticed.postReturns b)).completionTest takeLaneOut b))

/-- BUILD_ABORT: its checks; an accepted one, and an ORDER_CANCEL of a BOUND order outside CLEARING, leaves the order WAITING
with its lines reset, or CANCELLED with its lines as they were, the build DRAINING without order, its finish fields idle and
its style's use count lowered when it was FINISHING; a requeued order is then a binding event (log entry 17), and the work is
handed over: QUEUED and DEFERRED calls are freed and offered in ascending number (log entry 34), SENT calls become ORPHAN and
are counted, EN_ROUTE carriers become SURPLUS (their laps: log entry 27), unmarked hold records are WANTED, and the RETURN
frames and the drain test follow. The reply's entry stands before these frames (log entry 16) (R60, R92 to R95, R142). -/
def Obligations.AbortsHandOverTheWork : Prop :=
  let aborted : Part → Nat → Bool → Part := fun p b requeue =>
    let y := p.build b
    let style := p.styleAt b
    ((p.modOrder y.order (fun o =>
      if requeue then
        { o with state := .waiting, lines := Map.mapValues (fun l =>
          { l with member := 0, held := 0, enRoute := 0, outstanding := 0, uncalled := l.quantity, short := 0,
                   cause := none }) o.lines }
      else { o with state := .cancelled })).modBuild b (fun z =>
        { z with state := .draining, order := 0, committed := 0, dwell := .stopped, chilledHeld := 0, pointer := 0,
                 stepTimer := .stopped, waitTimer := .stopped, stopCause := .none, heldStep := none })).modUseCount
          style (fun n => if y.state = .finishing ∧ style ≠ 0 then n - 1 else n)
  let abortable : BuildState → Prop := fun x =>
    x = .gathering ∨ x = .shortHold ∨ x = .finishing ∨ x = .finishStopped
  (∀ (s : State) (pkt : Packet), s.part.receivesRequest .buildAbort pkt →
    let b := pkt.u8 8
    let y := s.part.build b
    let runs : Part → Prop := fun p => exec (.buildAbort pkt) s = .next { s with part := p }
    (b = 0 ∨ 64 < b → runs (s.part.replied pkt .badIndex [])) ∧
    (1 ≤ b → b ≤ 64 → 1 < pkt.u8 9 → runs (s.part.replied pkt .badValue [])) ∧
    (1 ≤ b → b ≤ 64 → pkt.u8 9 ≤ 1 → ¬ abortable y.state → runs (s.part.replied pkt .badState [])) ∧
    (1 ≤ b → b ≤ 64 → pkt.u8 9 ≤ 1 → abortable y.state → ∃ u : Part,
      u.Same (aborted (s.part.replied pkt .ok []) b (decide (pkt.u8 9 = 1))) ∧
      runs (((if pkt.u8 9 = 1 then u.bindingEvent takeLaneOut (List.range' 1 64) else u).handOver takeLaneOut b).withReply
        s.part pkt .ok (b32 y.order ++ b8 (if pkt.u8 9 = 1 then 2 else 6))))) ∧
  (∀ (s : State) (pkt : Packet) (o : Order) (b : Nat), s.part.receivesRequest .orderCancel pkt →
    s.part.order? (pkt.u32 8) = some o → o.state = .bound b → (s.part.build b).state ≠ .clearing → ∃ u : Part,
      u.Same (aborted (s.part.replied pkt .ok []) b false) ∧
      exec (.orderCancel pkt) s = .next { s with part :=
        ((u.handOver takeLaneOut b).withReply s.part pkt .ok (b8 3 ++ b8 b)) }) ∧
  (∀ (p : Part) (b : Nat),
    let waits : Part → Nat → Prop := fun q r =>
      (q.call r).bay = b ∧ ((q.call r).state = .queued ∨ (q.call r).state = .deferred)
    let q := ((p.calls.recs.map Prod.fst).filter (fun r => decide (waits p r))).foldl
      (fun q r => if waits q r then q.freeAndOffer takeLaneOut r else q) p
    1 ≤ b → Map.rising p.calls.recs = true → Map.rising q.calls.recs = true → ∃ u : Part,
      u = { q with calls := { q.calls with recs := u.calls.recs }, builds := u.builds, carriers := u.carriers,
                   pool := { q.pool with recs := u.pool.recs } } ∧
      (∀ r, u.call r =
        if (q.call r).bay = b ∧ (q.call r).state = .sent then
          { q.call r with state := .orphan, line := 0, mode := .home, member := 0, persist := .stopped,
                          expire := false }
        else q.call r) ∧
      (∀ a, u.build a =
        if a = b then
          { q.build b with orphans :=
            (q.calls.recs.filter (fun kv : Nat × Call => kv.2.bay = b && kv.2.state = .sent)).length }
        else q.build a) ∧
      (∀ c, u.carrier c =
        match (q.carrier c).state with
        | .enRoute a _ => if a = b then { q.carrier c with state := .surplus } else q.carrier c
        | _ => q.carrier c) ∧
      (∀ r, u.holdRec r =
        if r ∈ (q.build b).hold ∧ (q.holdRec r).mark = .none then { q.holdRec r with mark := .wanted }
        else q.holdRec r) ∧
      p.handOver takeLaneOut b = (u.postReturns b).drainTest takeLaneOut b)

/-- SHORT_ACCEPT: its checks; a build in SHORT_HOLD goes to release when its style is 0, and otherwise enters
FINISHING at its style's start index and executes the step there. The reply shows the build's state after it, in data byte
0 (the model's choice, log entry 45). The reply's entry stands before the RELEASE or STEP that the request posts (log entry
16). -/
def Obligations.ShortAcceptEndsAShortHold : Prop :=
  ∀ (s : State) (pkt : Packet), s.part.receivesRequest .shortAccept pkt →
    let b := pkt.u8 8
    let style := s.part.styleAt b
    (b = 0 ∨ 64 < b → exec (.shortAccept pkt) s = .next { s with part := s.part.replied pkt .badIndex [] }) ∧
    (1 ≤ b → b ≤ 64 → (s.part.build b).state ≠ .shortHold →
      exec (.shortAccept pkt) s = .next { s with part := s.part.replied pkt .badState [] }) ∧
    (1 ≤ b → b ≤ 64 → (s.part.build b).state = .shortHold → ∃ t : Part,
      exec (.shortAccept pkt) s = .next { s with part := t.withReply s.part pkt .ok (b8 (t.build b).state.code) } ∧
      (style = 0 → (s.part.replied pkt .ok []).releases b t) ∧
      (style ≠ 0 → ∃ u : Part,
        u.Same (((s.part.replied pkt .ok []).modBuild b (fun z =>
          { z with state := .finishing, pointer := s.part.styleStart style, stopCause := .none })).modUseCount style
            (fun n => n + 1)) ∧
        u.walks b t))

/-- LANE_STATE: its checks; action 1 puts a lane with a node ONLINE with no misses; action 2 clears its EMPTY flag,
with every DEFERRED call of its queue QUEUED where it stands; action 0 takes an ONLINE lane OFFLINE and resolves its
queue, and changes nothing of an OFFLINE one. The reply shows the lane after it. The reply's entry stands before the
frames that the queue's resolution posts (log entry 16); the resolution is that of
EmptyAndOfflineLanesResolveTheirQueues. -/
def Obligations.LaneStateSetsTheLane : Prop :=
  ∀ (s : State) (pkt : Packet), s.part.receivesRequest .laneState pkt →
    let l := pkt.u8 8
    let x := s.part.lane l
    let data : Lane → List Byte := fun z =>
      b8 (if z.online then 1 else 0) ++ b8 (if z.stockOut then 1 else 0) ++ b8 z.misses ++
        b8 (if z.busy = none then 0 else 1) ++ b16 z.queue.length
    let runs : Part → Prop := fun p => exec (.laneState pkt) s = .next { s with part := p }
    (l = 0 → runs (s.part.replied pkt .badIndex [])) ∧
    (l ≠ 0 → 2 < pkt.u8 9 → runs (s.part.replied pkt .badValue [])) ∧
    (l ≠ 0 → pkt.u8 9 = 1 → (s.part.laneDir l).node = 0 → runs (s.part.replied pkt .badValue [])) ∧
    (l ≠ 0 → pkt.u8 9 = 1 → (s.part.laneDir l).node ≠ 0 →
      runs ((s.part.modLane l (fun z => { z with online := true, misses := 0 })).replied pkt .ok
        (data { x with online := true, misses := 0 }))) ∧
    (l ≠ 0 → pkt.u8 9 = 2 → x.stockOut = false → runs (s.part.replied pkt .ok (data x))) ∧
    (l ≠ 0 → pkt.u8 9 = 2 → x.stockOut = true → ∃ u : Part,
      runs (u.replied pkt .ok (data { x with stockOut := false })) ∧
      u = { s.part with calls := { s.part.calls with recs := u.calls.recs, lanes := u.calls.lanes } } ∧
      (∀ a, u.lane a = if a = l then { x with stockOut := false } else s.part.lane a) ∧
      (∀ r, u.call r =
        if r ∈ x.queue ∧ (s.part.call r).state = .deferred then
          { s.part.call r with state := .queued, retry := .stopped }
        else s.part.call r)) ∧
    (l ≠ 0 → pkt.u8 9 = 0 → x.online = false → runs (s.part.replied pkt .ok (data x))) ∧
    (l ≠ 0 → pkt.u8 9 = 0 → x.online = true →
      let t := ((s.part.replied pkt .ok []).modLane l (fun z => { z with online := false })).resolveQueue takeLaneOut
        false l
      runs (t.withReply s.part pkt .ok (data (t.lane l))))
end

