-- ==== Sys2Proof/Laws/Map.lean ====
section
/-! SUPPORT. The laws of the sparse maps: what a write leaves to be read, and that every write keeps the canonical
form (log entry 13). -/

namespace Sys2Proof.Machine

variable {α : Type}

@[simp] theorem Map.find?_nil (k : Nat) : Map.find? ([] : Map α) k = none := rfl

theorem Map.find?_cons (j : Nat) (v : α) (m : Map α) (k : Nat) :
    Map.find? ((j, v) :: m) k = if j = k then some v else Map.find? m k := rfl

@[simp] theorem Map.find?_put_self (m : Map α) (k : Nat) (v : α) : Map.find? (Map.put m k v) k = some v := by
  induction m with
  | nil => simp [Map.put, Map.find?]
  | cons e rest ih =>
    obtain ⟨j, w⟩ := e
    simp only [Map.put]
    split
    · simp [Map.find?]
    · split
      · simp [Map.find?]
      · rename_i h1 h2
        simp [Map.find?, ih, Ne.symm h2]

theorem Map.find?_put_ne (m : Map α) {k l : Nat} (v : α) (h : l ≠ k) :
    Map.find? (Map.put m k v) l = Map.find? m l := by
  induction m with
  | nil => simp [Map.put, Map.find?, Ne.symm h]
  | cons e rest ih =>
    obtain ⟨j, w⟩ := e
    simp only [Map.put]
    split
    · simp [Map.find?, Ne.symm h]
    · split
      · rename_i h2
        simp [Map.find?, Ne.symm h, ← h2]
      · simp [Map.find?, ih]

@[simp] theorem Map.find?_erase_self (m : Map α) (k : Nat) : Map.find? (Map.erase m k) k = none := by
  induction m with
  | nil => rfl
  | cons e rest ih =>
    obtain ⟨j, w⟩ := e
    simp only [Map.erase]
    split
    · exact ih
    · rename_i h
      simp [Map.find?, h, ih]

theorem Map.find?_erase_ne (m : Map α) {k l : Nat} (h : l ≠ k) : Map.find? (Map.erase m k) l = Map.find? m l := by
  induction m with
  | nil => rfl
  | cons e rest ih =>
    obtain ⟨j, w⟩ := e
    simp only [Map.erase]
    split
    · rename_i h2
      simp [Map.find?, ih, h2, Ne.symm h]
    · simp [Map.find?, ih]

@[simp] theorem Map.get_nil (d : α) (k : Nat) : Map.get d ([] : Map α) k = d := rfl

/-- A read after a write to the same key gives the value written. -/
@[simp] theorem Map.get_set_self [DecidableEq α] (d : α) (m : Map α) (k : Nat) (v : α) :
    Map.get d (Map.set d m k v) k = v := by
  unfold Map.set Map.get
  split
  · rename_i h
    simp [h]
  · simp

/-- A write leaves every other key alone. -/
theorem Map.get_set_ne [DecidableEq α] (d : α) (m : Map α) {k l : Nat} (v : α) (h : l ≠ k) :
    Map.get d (Map.set d m k v) l = Map.get d m l := by
  unfold Map.set Map.get
  split
  · rw [Map.find?_erase_ne m h]
  · rw [Map.find?_put_ne m v h]

/-- A read after a write, by cases on the key. -/
theorem Map.get_set [DecidableEq α] (d : α) (m : Map α) (k l : Nat) (v : α) :
    Map.get d (Map.set d m k v) l = if l = k then v else Map.get d m l := by
  split
  · rename_i h
    rw [h, Map.get_set_self]
  · rename_i h
    exact Map.get_set_ne d m v h

theorem Map.find?_mapValues (f : α → α) (m : Map α) (k : Nat) :
    Map.find? (Map.mapValues f m) k = (Map.find? m k).map f := by
  induction m with
  | nil => rfl
  | cons e rest ih =>
    obtain ⟨j, w⟩ := e
    simp only [Map.mapValues, List.map_cons, Map.find?] at *
    split
    · rfl
    · exact ih

/-- Reading a store all of whose entries were replaced by their images, when the unlisted entry is its own image. -/
theorem Map.get_mapValues (d : α) (f : α → α) (h : f d = d) (m : Map α) (k : Nat) :
    Map.get d (Map.mapValues f m) k = f (Map.get d m k) := by
  unfold Map.get
  rw [Map.find?_mapValues]
  cases Map.find? m k <;> simp [h]

/-! ### The canonical form -/

/-- Rising keys, spelled over the tail. -/
theorem Map.rising_cons (k : Nat) (v : α) (m : Map α) :
    Map.rising ((k, v) :: m) = true ↔ (∀ e ∈ m, k < e.1) ∧ Map.rising m = true := by
  induction m generalizing k v with
  | nil => simp [Map.rising]
  | cons e rest ih =>
    obtain ⟨j, w⟩ := e
    rw [show Map.rising ((k, v) :: (j, w) :: rest) = (decide (k < j) && Map.rising ((j, w) :: rest)) from rfl]
    rw [Bool.and_eq_true, decide_eq_true_eq, ih]
    constructor
    · rintro ⟨h1, h2, h3⟩
      refine ⟨?_, h2, h3⟩
      intro e he
      rcases List.mem_cons.mp he with rfl | he
      · exact h1
      · exact lt_trans h1 (h2 e he)
    · rintro ⟨h1, h2⟩
      exact ⟨h1 (j, w) (by simp), h2⟩

theorem Map.mem_put {m : Map α} {k : Nat} {v : α} {e : Nat × α} (h : e ∈ Map.put m k v) : e = (k, v) ∨ e ∈ m := by
  induction m with
  | nil => exact .inl (List.mem_singleton.mp h)
  | cons x rest ih =>
    obtain ⟨j, w⟩ := x
    simp only [Map.put] at h
    split at h
    · rcases List.mem_cons.mp h with h | h
      · exact .inl h
      · exact .inr h
    · split at h
      · rcases List.mem_cons.mp h with h | h
        · exact .inl h
        · exact .inr (List.mem_cons_of_mem _ h)
      · rcases List.mem_cons.mp h with h | h
        · exact .inr (by simp [h])
        · rcases ih h with h | h
          · exact .inl h
          · exact .inr (List.mem_cons_of_mem _ h)

theorem Map.mem_erase {m : Map α} {k : Nat} {e : Nat × α} (h : e ∈ Map.erase m k) : e ∈ m := by
  induction m with
  | nil => exact h
  | cons x rest ih =>
    obtain ⟨j, w⟩ := x
    simp only [Map.erase] at h
    split at h
    · exact List.mem_cons_of_mem _ (ih h)
    · rcases List.mem_cons.mp h with h | h
      · simp [h]
      · exact List.mem_cons_of_mem _ (ih h)

theorem Map.rising_put {m : Map α} (h : Map.rising m = true) (k : Nat) (v : α) :
    Map.rising (Map.put m k v) = true := by
  induction m with
  | nil => rfl
  | cons x rest ih =>
    obtain ⟨j, w⟩ := x
    have h' := (Map.rising_cons j w rest).mp h
    simp only [Map.put]
    split
    · rename_i hk
      rw [Map.rising_cons]
      refine ⟨fun e he => ?_, h⟩
      rcases List.mem_cons.mp he with rfl | he
      · exact hk
      · exact lt_trans hk (h'.1 e he)
    · split
      · rename_i hk
        subst hk
        exact (Map.rising_cons _ v rest).mpr h'
      · rename_i h1 h2
        rw [Map.rising_cons]
        refine ⟨fun e he => ?_, ih h'.2⟩
        rcases Map.mem_put he with rfl | he
        · simp only; omega
        · exact h'.1 e he

theorem Map.rising_erase {m : Map α} (h : Map.rising m = true) (k : Nat) : Map.rising (Map.erase m k) = true := by
  induction m with
  | nil => rfl
  | cons x rest ih =>
    obtain ⟨j, w⟩ := x
    have h' := (Map.rising_cons j w rest).mp h
    simp only [Map.erase]
    split
    · exact ih h'.2
    · rw [Map.rising_cons]
      exact ⟨fun e he => h'.1 e (Map.mem_erase he), ih h'.2⟩

theorem Map.rising_filter {m : Map α} (h : Map.rising m = true) (q : Nat × α → Bool) :
    Map.rising (m.filter q) = true := by
  induction m with
  | nil => rfl
  | cons x rest ih =>
    obtain ⟨j, w⟩ := x
    have h' := (Map.rising_cons j w rest).mp h
    rw [List.filter_cons]
    split
    · rw [Map.rising_cons]
      exact ⟨fun e he => h'.1 e (List.mem_filter.mp he).1, ih h'.2⟩
    · exact ih h'.2

theorem Map.rising_mapValues {m : Map α} (h : Map.rising m = true) (f : α → α) :
    Map.rising (Map.mapValues f m) = true := by
  induction m with
  | nil => rfl
  | cons x rest ih =>
    obtain ⟨j, w⟩ := x
    have h' := (Map.rising_cons j w rest).mp h
    rw [show Map.mapValues f ((j, w) :: rest) = (j, f w) :: Map.mapValues f rest from rfl, Map.rising_cons]
    refine ⟨fun e he => ?_, ih h'.2⟩
    obtain ⟨e', he', rfl⟩ := List.mem_map.mp he
    exact h'.1 e' he'

/-- A write keeps the canonical form. -/
theorem Map.wf_set [DecidableEq α] {d : α} {m : Map α} (h : Map.wf d m = true) (k : Nat) (v : α) :
    Map.wf d (Map.set d m k v) = true := by
  simp only [Map.wf, Bool.and_eq_true, List.all_eq_true, decide_eq_true_eq] at h ⊢
  unfold Map.set
  split
  · exact ⟨Map.rising_erase h.1 k, fun e he => h.2 e (Map.mem_erase he)⟩
  · rename_i hv
    refine ⟨Map.rising_put h.1 k v, fun e he => ?_⟩
    rcases Map.mem_put he with rfl | he
    · exact hv
    · exact h.2 e he

/-- Replacing entries by images that are not the unlisted entry keeps the canonical form. -/
theorem Map.wf_mapValues [DecidableEq α] {d : α} {m : Map α} (f : α → α) (hf : ∀ v, v ≠ d → f v ≠ d)
    (h : Map.wf d m = true) : Map.wf d (Map.mapValues f m) = true := by
  simp only [Map.wf, Bool.and_eq_true, List.all_eq_true, decide_eq_true_eq] at h ⊢
  refine ⟨Map.rising_mapValues h.1 f, fun e he => ?_⟩
  obtain ⟨e', he', rfl⟩ := List.mem_map.mp he
  exact hf _ (h.2 e' he')

/-- Replacing entries and dropping those that become the unlisted entry keeps the canonical form. -/
theorem Map.wf_remake [DecidableEq α] {d : α} {m : Map α} (f : α → α) (h : Map.rising m = true) :
    Map.wf d (Map.remake d f m) = true := by
  simp only [Map.wf, Map.remake, Bool.and_eq_true, List.all_eq_true, decide_eq_true_eq]
  exact ⟨Map.rising_filter (Map.rising_mapValues h f) _, fun e he => by simpa using (List.mem_filter.mp he).2⟩

theorem Map.wf_nil [DecidableEq α] (d : α) : Map.wf d ([] : Map α) = true := rfl

/-- Writing to a listed key of a store with rising keys leaves its length. -/
theorem Map.length_put_of_find? {m : Map α} (h : Map.rising m = true) {k : Nat} {w : α} (v : α)
    (hk : Map.find? m k = some w) : (Map.put m k v).length = m.length := by
  induction m with
  | nil => simp [Map.find?] at hk
  | cons x rest ih =>
    obtain ⟨j, u⟩ := x
    have h' := (Map.rising_cons j u rest).mp h
    simp only [Map.put]
    split
    · rename_i hlt
      exfalso
      rw [Map.find?_cons, if_neg (by omega)] at hk
      have : ∀ (r : Map α), (∀ e ∈ r, j < e.1) → Map.find? r k = none := by
        intro r
        induction r with
        | nil => intro _; rfl
        | cons y ys ihr =>
          intro hr
          obtain ⟨a, b⟩ := y
          have := hr (a, b) (by simp)
          rw [Map.find?_cons, if_neg (by simp only at this; omega)]
          exact ihr (fun e he => hr e (List.mem_cons_of_mem _ he))
      rw [this rest h'.1] at hk
      simp at hk
    · split
      · rfl
      · rename_i h1 h2
        rw [Map.find?_cons, if_neg (Ne.symm h2)] at hk
        simp [ih h'.2 hk]

theorem Map.length_put_le (m : Map α) (k : Nat) (v : α) : (Map.put m k v).length ≤ m.length + 1 := by
  induction m with
  | nil => simp [Map.put]
  | cons x rest ih =>
    obtain ⟨j, u⟩ := x
    simp only [Map.put]
    split
    · simp
    · split
      · simp
      · simp only [List.length_cons]; omega

theorem Map.length_erase_le (m : Map α) (k : Nat) : (Map.erase m k).length ≤ m.length := by
  induction m with
  | nil => simp [Map.erase]
  | cons x rest ih =>
    obtain ⟨j, u⟩ := x
    simp only [Map.erase]
    split
    · simp only [List.length_cons]; omega
    · simp only [List.length_cons]; omega

@[simp] theorem Map.length_mapValues (f : α → α) (m : Map α) : (Map.mapValues f m).length = m.length := by
  simp [Map.mapValues]

end Sys2Proof.Machine
end

