-- ==== Sys2Proof/Laws/State.lean ====
section
/-! SUPPORT. What each named update of the part leaves as it was, field by field and read by read, and what a read sees
after a write of the same store. -/

namespace Sys2Proof.Machine


/-! ### `Part.putSlot` -/

@[simp] theorem Part.counters_putSlot (f : Frame) (p : Part) : (p.putSlot f).counters = p.counters := rfl
@[simp] theorem Part.hall_putSlot (f : Frame) (p : Part) : (p.putSlot f).hall = p.hall := rfl
@[simp] theorem Part.mode_putSlot (f : Frame) (p : Part) : (p.putSlot f).mode = p.mode := rfl
@[simp] theorem Part.tables_putSlot (f : Frame) (p : Part) : (p.putSlot f).tables = p.tables := rfl
@[simp] theorem Part.useCounts_putSlot (f : Frame) (p : Part) : (p.putSlot f).useCounts = p.useCounts := rfl
@[simp] theorem Part.book_putSlot (f : Frame) (p : Part) : (p.putSlot f).book = p.book := rfl
@[simp] theorem Part.builds_putSlot (f : Frame) (p : Part) : (p.putSlot f).builds = p.builds := rfl
@[simp] theorem Part.pool_putSlot (f : Frame) (p : Part) : (p.putSlot f).pool = p.pool := rfl
@[simp] theorem Part.calls_putSlot (f : Frame) (p : Part) : (p.putSlot f).calls = p.calls := rfl
@[simp] theorem Part.cal_putSlot (f : Frame) (p : Part) : (p.putSlot f).cal = p.cal := rfl
@[simp] theorem Part.carriers_putSlot (f : Frame) (p : Part) : (p.putSlot f).carriers = p.carriers := rfl
@[simp] theorem Part.notices_putSlot (f : Frame) (p : Part) : (p.putSlot f).notices = p.notices := rfl
@[simp] theorem Part.build_putSlot (f : Frame) (p : Part) (k : Nat) : (p.putSlot f).build k = p.build k := rfl
@[simp] theorem Part.call_putSlot (f : Frame) (p : Part) (k : Nat) : (p.putSlot f).call k = p.call k := rfl
@[simp] theorem Part.lane_putSlot (f : Frame) (p : Part) (k : Nat) : (p.putSlot f).lane k = p.lane k := rfl
@[simp] theorem Part.holdRec_putSlot (f : Frame) (p : Part) (k : Nat) : (p.putSlot f).holdRec k = p.holdRec k := rfl
@[simp] theorem Part.carrier_putSlot (f : Frame) (p : Part) (k : Nat) : (p.putSlot f).carrier k = p.carrier k := rfl
@[simp] theorem Part.noticeQueue_putSlot (f : Frame) (p : Part) (k : Nat) : (p.putSlot f).noticeQueue k = p.noticeQueue k := rfl
@[simp] theorem Part.order_q_putSlot (f : Frame) (p : Part) (k : Nat) : (p.putSlot f).order? k = p.order? k := rfl
@[simp] theorem Part.orderAt_putSlot (f : Frame) (p : Part) (k : Nat) : (p.putSlot f).orderAt k = p.orderAt k := rfl
@[simp] theorem Part.lineAt_putSlot (f : Frame) (p : Part) (k j : Nat) : (p.putSlot f).lineAt k j = p.lineAt k j := rfl
@[simp] theorem Part.styleAt_putSlot (f : Frame) (p : Part) (k : Nat) : (p.putSlot f).styleAt k = p.styleAt k := rfl
@[simp] theorem Part.counter_putSlot (f : Frame) (p : Part) (k : Nat) : (p.putSlot f).counter k = p.counter k := rfl
@[simp] theorem Part.article_putSlot (f : Frame) (p : Part) (k : Nat) : (p.putSlot f).article k = p.article k := rfl
@[simp] theorem Part.laneDir_putSlot (f : Frame) (p : Part) (k : Nat) : (p.putSlot f).laneDir k = p.laneDir k := rfl
@[simp] theorem Part.bayDir_putSlot (f : Frame) (p : Part) (k : Nat) : (p.putSlot f).bayDir k = p.bayDir k := rfl
@[simp] theorem Part.const_putSlot (f : Frame) (p : Part) (k : Nat) : (p.putSlot f).const k = p.const k := rfl
@[simp] theorem Part.routing_putSlot (f : Frame) (p : Part) (k : NoticeKind) : (p.putSlot f).routing k = p.routing k := rfl
@[simp] theorem Part.destination_putSlot (f : Frame) (p : Part) (k : Nat) : (p.putSlot f).destination k = p.destination k := rfl
@[simp] theorem Part.step_putSlot (f : Frame) (p : Part) (k : Nat) : (p.putSlot f).step k = p.step k := rfl
@[simp] theorem Part.useCount_putSlot (f : Frame) (p : Part) (k : Nat) : (p.putSlot f).useCount k = p.useCount k := rfl
@[simp] theorem Part.node_putSlot (f : Frame) (p : Part) : (p.putSlot f).node = p.node := rfl
@[simp] theorem Part.inert_putSlot (f : Frame) (p : Part) : (p.putSlot f).inert = p.inert := rfl

/-! ### `Part.modNormal` -/

@[simp] theorem Part.counters_modNormal (f : List Post → List Post) (p : Part) : (p.modNormal f).counters = p.counters := rfl
@[simp] theorem Part.hall_modNormal (f : List Post → List Post) (p : Part) : (p.modNormal f).hall = p.hall := rfl
@[simp] theorem Part.mode_modNormal (f : List Post → List Post) (p : Part) : (p.modNormal f).mode = p.mode := rfl
@[simp] theorem Part.tables_modNormal (f : List Post → List Post) (p : Part) : (p.modNormal f).tables = p.tables := rfl
@[simp] theorem Part.useCounts_modNormal (f : List Post → List Post) (p : Part) : (p.modNormal f).useCounts = p.useCounts := rfl
@[simp] theorem Part.book_modNormal (f : List Post → List Post) (p : Part) : (p.modNormal f).book = p.book := rfl
@[simp] theorem Part.builds_modNormal (f : List Post → List Post) (p : Part) : (p.modNormal f).builds = p.builds := rfl
@[simp] theorem Part.pool_modNormal (f : List Post → List Post) (p : Part) : (p.modNormal f).pool = p.pool := rfl
@[simp] theorem Part.calls_modNormal (f : List Post → List Post) (p : Part) : (p.modNormal f).calls = p.calls := rfl
@[simp] theorem Part.cal_modNormal (f : List Post → List Post) (p : Part) : (p.modNormal f).cal = p.cal := rfl
@[simp] theorem Part.carriers_modNormal (f : List Post → List Post) (p : Part) : (p.modNormal f).carriers = p.carriers := rfl
@[simp] theorem Part.notices_modNormal (f : List Post → List Post) (p : Part) : (p.modNormal f).notices = p.notices := rfl
@[simp] theorem Part.build_modNormal (f : List Post → List Post) (p : Part) (k : Nat) : (p.modNormal f).build k = p.build k := rfl
@[simp] theorem Part.call_modNormal (f : List Post → List Post) (p : Part) (k : Nat) : (p.modNormal f).call k = p.call k := rfl
@[simp] theorem Part.lane_modNormal (f : List Post → List Post) (p : Part) (k : Nat) : (p.modNormal f).lane k = p.lane k := rfl
@[simp] theorem Part.holdRec_modNormal (f : List Post → List Post) (p : Part) (k : Nat) : (p.modNormal f).holdRec k = p.holdRec k := rfl
@[simp] theorem Part.carrier_modNormal (f : List Post → List Post) (p : Part) (k : Nat) : (p.modNormal f).carrier k = p.carrier k := rfl
@[simp] theorem Part.noticeQueue_modNormal (f : List Post → List Post) (p : Part) (k : Nat) : (p.modNormal f).noticeQueue k = p.noticeQueue k := rfl
@[simp] theorem Part.order_q_modNormal (f : List Post → List Post) (p : Part) (k : Nat) : (p.modNormal f).order? k = p.order? k := rfl
@[simp] theorem Part.orderAt_modNormal (f : List Post → List Post) (p : Part) (k : Nat) : (p.modNormal f).orderAt k = p.orderAt k := rfl
@[simp] theorem Part.lineAt_modNormal (f : List Post → List Post) (p : Part) (k j : Nat) : (p.modNormal f).lineAt k j = p.lineAt k j := rfl
@[simp] theorem Part.styleAt_modNormal (f : List Post → List Post) (p : Part) (k : Nat) : (p.modNormal f).styleAt k = p.styleAt k := rfl
@[simp] theorem Part.counter_modNormal (f : List Post → List Post) (p : Part) (k : Nat) : (p.modNormal f).counter k = p.counter k := rfl
@[simp] theorem Part.article_modNormal (f : List Post → List Post) (p : Part) (k : Nat) : (p.modNormal f).article k = p.article k := rfl
@[simp] theorem Part.laneDir_modNormal (f : List Post → List Post) (p : Part) (k : Nat) : (p.modNormal f).laneDir k = p.laneDir k := rfl
@[simp] theorem Part.bayDir_modNormal (f : List Post → List Post) (p : Part) (k : Nat) : (p.modNormal f).bayDir k = p.bayDir k := rfl
@[simp] theorem Part.const_modNormal (f : List Post → List Post) (p : Part) (k : Nat) : (p.modNormal f).const k = p.const k := rfl
@[simp] theorem Part.routing_modNormal (f : List Post → List Post) (p : Part) (k : NoticeKind) : (p.modNormal f).routing k = p.routing k := rfl
@[simp] theorem Part.destination_modNormal (f : List Post → List Post) (p : Part) (k : Nat) : (p.modNormal f).destination k = p.destination k := rfl
@[simp] theorem Part.step_modNormal (f : List Post → List Post) (p : Part) (k : Nat) : (p.modNormal f).step k = p.step k := rfl
@[simp] theorem Part.useCount_modNormal (f : List Post → List Post) (p : Part) (k : Nat) : (p.modNormal f).useCount k = p.useCount k := rfl
@[simp] theorem Part.node_modNormal (f : List Post → List Post) (p : Part) : (p.modNormal f).node = p.node := rfl
@[simp] theorem Part.inert_modNormal (f : List Post → List Post) (p : Part) : (p.modNormal f).inert = p.inert := rfl

/-! ### `Part.count` -/

@[simp] theorem Part.ring_count (c : Counter) (p : Part) : (p.count c).ring = p.ring := rfl
@[simp] theorem Part.hall_count (c : Counter) (p : Part) : (p.count c).hall = p.hall := rfl
@[simp] theorem Part.mode_count (c : Counter) (p : Part) : (p.count c).mode = p.mode := rfl
@[simp] theorem Part.tables_count (c : Counter) (p : Part) : (p.count c).tables = p.tables := rfl
@[simp] theorem Part.useCounts_count (c : Counter) (p : Part) : (p.count c).useCounts = p.useCounts := rfl
@[simp] theorem Part.book_count (c : Counter) (p : Part) : (p.count c).book = p.book := rfl
@[simp] theorem Part.builds_count (c : Counter) (p : Part) : (p.count c).builds = p.builds := rfl
@[simp] theorem Part.pool_count (c : Counter) (p : Part) : (p.count c).pool = p.pool := rfl
@[simp] theorem Part.calls_count (c : Counter) (p : Part) : (p.count c).calls = p.calls := rfl
@[simp] theorem Part.cal_count (c : Counter) (p : Part) : (p.count c).cal = p.cal := rfl
@[simp] theorem Part.carriers_count (c : Counter) (p : Part) : (p.count c).carriers = p.carriers := rfl
@[simp] theorem Part.notices_count (c : Counter) (p : Part) : (p.count c).notices = p.notices := rfl
@[simp] theorem Part.build_count (c : Counter) (p : Part) (k : Nat) : (p.count c).build k = p.build k := rfl
@[simp] theorem Part.call_count (c : Counter) (p : Part) (k : Nat) : (p.count c).call k = p.call k := rfl
@[simp] theorem Part.lane_count (c : Counter) (p : Part) (k : Nat) : (p.count c).lane k = p.lane k := rfl
@[simp] theorem Part.holdRec_count (c : Counter) (p : Part) (k : Nat) : (p.count c).holdRec k = p.holdRec k := rfl
@[simp] theorem Part.carrier_count (c : Counter) (p : Part) (k : Nat) : (p.count c).carrier k = p.carrier k := rfl
@[simp] theorem Part.noticeQueue_count (c : Counter) (p : Part) (k : Nat) : (p.count c).noticeQueue k = p.noticeQueue k := rfl
@[simp] theorem Part.order_q_count (c : Counter) (p : Part) (k : Nat) : (p.count c).order? k = p.order? k := rfl
@[simp] theorem Part.orderAt_count (c : Counter) (p : Part) (k : Nat) : (p.count c).orderAt k = p.orderAt k := rfl
@[simp] theorem Part.lineAt_count (c : Counter) (p : Part) (k j : Nat) : (p.count c).lineAt k j = p.lineAt k j := rfl
@[simp] theorem Part.styleAt_count (c : Counter) (p : Part) (k : Nat) : (p.count c).styleAt k = p.styleAt k := rfl
@[simp] theorem Part.article_count (c : Counter) (p : Part) (k : Nat) : (p.count c).article k = p.article k := rfl
@[simp] theorem Part.laneDir_count (c : Counter) (p : Part) (k : Nat) : (p.count c).laneDir k = p.laneDir k := rfl
@[simp] theorem Part.bayDir_count (c : Counter) (p : Part) (k : Nat) : (p.count c).bayDir k = p.bayDir k := rfl
@[simp] theorem Part.const_count (c : Counter) (p : Part) (k : Nat) : (p.count c).const k = p.const k := rfl
@[simp] theorem Part.routing_count (c : Counter) (p : Part) (k : NoticeKind) : (p.count c).routing k = p.routing k := rfl
@[simp] theorem Part.destination_count (c : Counter) (p : Part) (k : Nat) : (p.count c).destination k = p.destination k := rfl
@[simp] theorem Part.step_count (c : Counter) (p : Part) (k : Nat) : (p.count c).step k = p.step k := rfl
@[simp] theorem Part.useCount_count (c : Counter) (p : Part) (k : Nat) : (p.count c).useCount k = p.useCount k := rfl
@[simp] theorem Part.node_count (c : Counter) (p : Part) : (p.count c).node = p.node := rfl
@[simp] theorem Part.inert_count (c : Counter) (p : Part) : (p.count c).inert = p.inert := rfl

/-! ### `Part.modBuild` -/

@[simp] theorem Part.ring_modBuild (b : Nat) (f : Build → Build) (p : Part) : (p.modBuild b f).ring = p.ring := rfl
@[simp] theorem Part.counters_modBuild (b : Nat) (f : Build → Build) (p : Part) : (p.modBuild b f).counters = p.counters := rfl
@[simp] theorem Part.hall_modBuild (b : Nat) (f : Build → Build) (p : Part) : (p.modBuild b f).hall = p.hall := rfl
@[simp] theorem Part.mode_modBuild (b : Nat) (f : Build → Build) (p : Part) : (p.modBuild b f).mode = p.mode := rfl
@[simp] theorem Part.tables_modBuild (b : Nat) (f : Build → Build) (p : Part) : (p.modBuild b f).tables = p.tables := rfl
@[simp] theorem Part.useCounts_modBuild (b : Nat) (f : Build → Build) (p : Part) : (p.modBuild b f).useCounts = p.useCounts := rfl
@[simp] theorem Part.book_modBuild (b : Nat) (f : Build → Build) (p : Part) : (p.modBuild b f).book = p.book := rfl
@[simp] theorem Part.pool_modBuild (b : Nat) (f : Build → Build) (p : Part) : (p.modBuild b f).pool = p.pool := rfl
@[simp] theorem Part.calls_modBuild (b : Nat) (f : Build → Build) (p : Part) : (p.modBuild b f).calls = p.calls := rfl
@[simp] theorem Part.cal_modBuild (b : Nat) (f : Build → Build) (p : Part) : (p.modBuild b f).cal = p.cal := rfl
@[simp] theorem Part.carriers_modBuild (b : Nat) (f : Build → Build) (p : Part) : (p.modBuild b f).carriers = p.carriers := rfl
@[simp] theorem Part.notices_modBuild (b : Nat) (f : Build → Build) (p : Part) : (p.modBuild b f).notices = p.notices := rfl
@[simp] theorem Part.call_modBuild (b : Nat) (f : Build → Build) (p : Part) (k : Nat) : (p.modBuild b f).call k = p.call k := rfl
@[simp] theorem Part.lane_modBuild (b : Nat) (f : Build → Build) (p : Part) (k : Nat) : (p.modBuild b f).lane k = p.lane k := rfl
@[simp] theorem Part.holdRec_modBuild (b : Nat) (f : Build → Build) (p : Part) (k : Nat) : (p.modBuild b f).holdRec k = p.holdRec k := rfl
@[simp] theorem Part.carrier_modBuild (b : Nat) (f : Build → Build) (p : Part) (k : Nat) : (p.modBuild b f).carrier k = p.carrier k := rfl
@[simp] theorem Part.noticeQueue_modBuild (b : Nat) (f : Build → Build) (p : Part) (k : Nat) : (p.modBuild b f).noticeQueue k = p.noticeQueue k := rfl
@[simp] theorem Part.order_q_modBuild (b : Nat) (f : Build → Build) (p : Part) (k : Nat) : (p.modBuild b f).order? k = p.order? k := rfl
@[simp] theorem Part.counter_modBuild (b : Nat) (f : Build → Build) (p : Part) (k : Nat) : (p.modBuild b f).counter k = p.counter k := rfl
@[simp] theorem Part.article_modBuild (b : Nat) (f : Build → Build) (p : Part) (k : Nat) : (p.modBuild b f).article k = p.article k := rfl
@[simp] theorem Part.laneDir_modBuild (b : Nat) (f : Build → Build) (p : Part) (k : Nat) : (p.modBuild b f).laneDir k = p.laneDir k := rfl
@[simp] theorem Part.bayDir_modBuild (b : Nat) (f : Build → Build) (p : Part) (k : Nat) : (p.modBuild b f).bayDir k = p.bayDir k := rfl
@[simp] theorem Part.const_modBuild (b : Nat) (f : Build → Build) (p : Part) (k : Nat) : (p.modBuild b f).const k = p.const k := rfl
@[simp] theorem Part.routing_modBuild (b : Nat) (f : Build → Build) (p : Part) (k : NoticeKind) : (p.modBuild b f).routing k = p.routing k := rfl
@[simp] theorem Part.destination_modBuild (b : Nat) (f : Build → Build) (p : Part) (k : Nat) : (p.modBuild b f).destination k = p.destination k := rfl
@[simp] theorem Part.step_modBuild (b : Nat) (f : Build → Build) (p : Part) (k : Nat) : (p.modBuild b f).step k = p.step k := rfl
@[simp] theorem Part.useCount_modBuild (b : Nat) (f : Build → Build) (p : Part) (k : Nat) : (p.modBuild b f).useCount k = p.useCount k := rfl
@[simp] theorem Part.node_modBuild (b : Nat) (f : Build → Build) (p : Part) : (p.modBuild b f).node = p.node := rfl
@[simp] theorem Part.inert_modBuild (b : Nat) (f : Build → Build) (p : Part) : (p.modBuild b f).inert = p.inert := rfl

/-! ### `Part.modCall` -/

@[simp] theorem Part.ring_modCall (i : Nat) (f : Call → Call) (p : Part) : (p.modCall i f).ring = p.ring := rfl
@[simp] theorem Part.counters_modCall (i : Nat) (f : Call → Call) (p : Part) : (p.modCall i f).counters = p.counters := rfl
@[simp] theorem Part.hall_modCall (i : Nat) (f : Call → Call) (p : Part) : (p.modCall i f).hall = p.hall := rfl
@[simp] theorem Part.mode_modCall (i : Nat) (f : Call → Call) (p : Part) : (p.modCall i f).mode = p.mode := rfl
@[simp] theorem Part.tables_modCall (i : Nat) (f : Call → Call) (p : Part) : (p.modCall i f).tables = p.tables := rfl
@[simp] theorem Part.useCounts_modCall (i : Nat) (f : Call → Call) (p : Part) : (p.modCall i f).useCounts = p.useCounts := rfl
@[simp] theorem Part.book_modCall (i : Nat) (f : Call → Call) (p : Part) : (p.modCall i f).book = p.book := rfl
@[simp] theorem Part.builds_modCall (i : Nat) (f : Call → Call) (p : Part) : (p.modCall i f).builds = p.builds := rfl
@[simp] theorem Part.pool_modCall (i : Nat) (f : Call → Call) (p : Part) : (p.modCall i f).pool = p.pool := rfl
@[simp] theorem Part.cal_modCall (i : Nat) (f : Call → Call) (p : Part) : (p.modCall i f).cal = p.cal := rfl
@[simp] theorem Part.carriers_modCall (i : Nat) (f : Call → Call) (p : Part) : (p.modCall i f).carriers = p.carriers := rfl
@[simp] theorem Part.notices_modCall (i : Nat) (f : Call → Call) (p : Part) : (p.modCall i f).notices = p.notices := rfl
@[simp] theorem Part.build_modCall (i : Nat) (f : Call → Call) (p : Part) (k : Nat) : (p.modCall i f).build k = p.build k := rfl
@[simp] theorem Part.lane_modCall (i : Nat) (f : Call → Call) (p : Part) (k : Nat) : (p.modCall i f).lane k = p.lane k := rfl
@[simp] theorem Part.holdRec_modCall (i : Nat) (f : Call → Call) (p : Part) (k : Nat) : (p.modCall i f).holdRec k = p.holdRec k := rfl
@[simp] theorem Part.carrier_modCall (i : Nat) (f : Call → Call) (p : Part) (k : Nat) : (p.modCall i f).carrier k = p.carrier k := rfl
@[simp] theorem Part.noticeQueue_modCall (i : Nat) (f : Call → Call) (p : Part) (k : Nat) : (p.modCall i f).noticeQueue k = p.noticeQueue k := rfl
@[simp] theorem Part.order_q_modCall (i : Nat) (f : Call → Call) (p : Part) (k : Nat) : (p.modCall i f).order? k = p.order? k := rfl
@[simp] theorem Part.orderAt_modCall (i : Nat) (f : Call → Call) (p : Part) (k : Nat) : (p.modCall i f).orderAt k = p.orderAt k := rfl
@[simp] theorem Part.lineAt_modCall (i : Nat) (f : Call → Call) (p : Part) (k j : Nat) : (p.modCall i f).lineAt k j = p.lineAt k j := rfl
@[simp] theorem Part.styleAt_modCall (i : Nat) (f : Call → Call) (p : Part) (k : Nat) : (p.modCall i f).styleAt k = p.styleAt k := rfl
@[simp] theorem Part.counter_modCall (i : Nat) (f : Call → Call) (p : Part) (k : Nat) : (p.modCall i f).counter k = p.counter k := rfl
@[simp] theorem Part.article_modCall (i : Nat) (f : Call → Call) (p : Part) (k : Nat) : (p.modCall i f).article k = p.article k := rfl
@[simp] theorem Part.laneDir_modCall (i : Nat) (f : Call → Call) (p : Part) (k : Nat) : (p.modCall i f).laneDir k = p.laneDir k := rfl
@[simp] theorem Part.bayDir_modCall (i : Nat) (f : Call → Call) (p : Part) (k : Nat) : (p.modCall i f).bayDir k = p.bayDir k := rfl
@[simp] theorem Part.const_modCall (i : Nat) (f : Call → Call) (p : Part) (k : Nat) : (p.modCall i f).const k = p.const k := rfl
@[simp] theorem Part.routing_modCall (i : Nat) (f : Call → Call) (p : Part) (k : NoticeKind) : (p.modCall i f).routing k = p.routing k := rfl
@[simp] theorem Part.destination_modCall (i : Nat) (f : Call → Call) (p : Part) (k : Nat) : (p.modCall i f).destination k = p.destination k := rfl
@[simp] theorem Part.step_modCall (i : Nat) (f : Call → Call) (p : Part) (k : Nat) : (p.modCall i f).step k = p.step k := rfl
@[simp] theorem Part.useCount_modCall (i : Nat) (f : Call → Call) (p : Part) (k : Nat) : (p.modCall i f).useCount k = p.useCount k := rfl
@[simp] theorem Part.node_modCall (i : Nat) (f : Call → Call) (p : Part) : (p.modCall i f).node = p.node := rfl
@[simp] theorem Part.inert_modCall (i : Nat) (f : Call → Call) (p : Part) : (p.modCall i f).inert = p.inert := rfl

/-! ### `Part.modLane` -/

@[simp] theorem Part.ring_modLane (l : Nat) (f : Lane → Lane) (p : Part) : (p.modLane l f).ring = p.ring := rfl
@[simp] theorem Part.counters_modLane (l : Nat) (f : Lane → Lane) (p : Part) : (p.modLane l f).counters = p.counters := rfl
@[simp] theorem Part.hall_modLane (l : Nat) (f : Lane → Lane) (p : Part) : (p.modLane l f).hall = p.hall := rfl
@[simp] theorem Part.mode_modLane (l : Nat) (f : Lane → Lane) (p : Part) : (p.modLane l f).mode = p.mode := rfl
@[simp] theorem Part.tables_modLane (l : Nat) (f : Lane → Lane) (p : Part) : (p.modLane l f).tables = p.tables := rfl
@[simp] theorem Part.useCounts_modLane (l : Nat) (f : Lane → Lane) (p : Part) : (p.modLane l f).useCounts = p.useCounts := rfl
@[simp] theorem Part.book_modLane (l : Nat) (f : Lane → Lane) (p : Part) : (p.modLane l f).book = p.book := rfl
@[simp] theorem Part.builds_modLane (l : Nat) (f : Lane → Lane) (p : Part) : (p.modLane l f).builds = p.builds := rfl
@[simp] theorem Part.pool_modLane (l : Nat) (f : Lane → Lane) (p : Part) : (p.modLane l f).pool = p.pool := rfl
@[simp] theorem Part.cal_modLane (l : Nat) (f : Lane → Lane) (p : Part) : (p.modLane l f).cal = p.cal := rfl
@[simp] theorem Part.carriers_modLane (l : Nat) (f : Lane → Lane) (p : Part) : (p.modLane l f).carriers = p.carriers := rfl
@[simp] theorem Part.notices_modLane (l : Nat) (f : Lane → Lane) (p : Part) : (p.modLane l f).notices = p.notices := rfl
@[simp] theorem Part.build_modLane (l : Nat) (f : Lane → Lane) (p : Part) (k : Nat) : (p.modLane l f).build k = p.build k := rfl
@[simp] theorem Part.call_modLane (l : Nat) (f : Lane → Lane) (p : Part) (k : Nat) : (p.modLane l f).call k = p.call k := rfl
@[simp] theorem Part.holdRec_modLane (l : Nat) (f : Lane → Lane) (p : Part) (k : Nat) : (p.modLane l f).holdRec k = p.holdRec k := rfl
@[simp] theorem Part.carrier_modLane (l : Nat) (f : Lane → Lane) (p : Part) (k : Nat) : (p.modLane l f).carrier k = p.carrier k := rfl
@[simp] theorem Part.noticeQueue_modLane (l : Nat) (f : Lane → Lane) (p : Part) (k : Nat) : (p.modLane l f).noticeQueue k = p.noticeQueue k := rfl
@[simp] theorem Part.order_q_modLane (l : Nat) (f : Lane → Lane) (p : Part) (k : Nat) : (p.modLane l f).order? k = p.order? k := rfl
@[simp] theorem Part.orderAt_modLane (l : Nat) (f : Lane → Lane) (p : Part) (k : Nat) : (p.modLane l f).orderAt k = p.orderAt k := rfl
@[simp] theorem Part.lineAt_modLane (l : Nat) (f : Lane → Lane) (p : Part) (k j : Nat) : (p.modLane l f).lineAt k j = p.lineAt k j := rfl
@[simp] theorem Part.styleAt_modLane (l : Nat) (f : Lane → Lane) (p : Part) (k : Nat) : (p.modLane l f).styleAt k = p.styleAt k := rfl
@[simp] theorem Part.counter_modLane (l : Nat) (f : Lane → Lane) (p : Part) (k : Nat) : (p.modLane l f).counter k = p.counter k := rfl
@[simp] theorem Part.article_modLane (l : Nat) (f : Lane → Lane) (p : Part) (k : Nat) : (p.modLane l f).article k = p.article k := rfl
@[simp] theorem Part.laneDir_modLane (l : Nat) (f : Lane → Lane) (p : Part) (k : Nat) : (p.modLane l f).laneDir k = p.laneDir k := rfl
@[simp] theorem Part.bayDir_modLane (l : Nat) (f : Lane → Lane) (p : Part) (k : Nat) : (p.modLane l f).bayDir k = p.bayDir k := rfl
@[simp] theorem Part.const_modLane (l : Nat) (f : Lane → Lane) (p : Part) (k : Nat) : (p.modLane l f).const k = p.const k := rfl
@[simp] theorem Part.routing_modLane (l : Nat) (f : Lane → Lane) (p : Part) (k : NoticeKind) : (p.modLane l f).routing k = p.routing k := rfl
@[simp] theorem Part.destination_modLane (l : Nat) (f : Lane → Lane) (p : Part) (k : Nat) : (p.modLane l f).destination k = p.destination k := rfl
@[simp] theorem Part.step_modLane (l : Nat) (f : Lane → Lane) (p : Part) (k : Nat) : (p.modLane l f).step k = p.step k := rfl
@[simp] theorem Part.useCount_modLane (l : Nat) (f : Lane → Lane) (p : Part) (k : Nat) : (p.modLane l f).useCount k = p.useCount k := rfl
@[simp] theorem Part.node_modLane (l : Nat) (f : Lane → Lane) (p : Part) : (p.modLane l f).node = p.node := rfl
@[simp] theorem Part.inert_modLane (l : Nat) (f : Lane → Lane) (p : Part) : (p.modLane l f).inert = p.inert := rfl

/-! ### `Part.setRec` -/

@[simp] theorem Part.ring_setRec (r : Nat) (v : HoldRecord) (p : Part) : (p.setRec r v).ring = p.ring := rfl
@[simp] theorem Part.counters_setRec (r : Nat) (v : HoldRecord) (p : Part) : (p.setRec r v).counters = p.counters := rfl
@[simp] theorem Part.hall_setRec (r : Nat) (v : HoldRecord) (p : Part) : (p.setRec r v).hall = p.hall := rfl
@[simp] theorem Part.mode_setRec (r : Nat) (v : HoldRecord) (p : Part) : (p.setRec r v).mode = p.mode := rfl
@[simp] theorem Part.tables_setRec (r : Nat) (v : HoldRecord) (p : Part) : (p.setRec r v).tables = p.tables := rfl
@[simp] theorem Part.useCounts_setRec (r : Nat) (v : HoldRecord) (p : Part) : (p.setRec r v).useCounts = p.useCounts := rfl
@[simp] theorem Part.book_setRec (r : Nat) (v : HoldRecord) (p : Part) : (p.setRec r v).book = p.book := rfl
@[simp] theorem Part.builds_setRec (r : Nat) (v : HoldRecord) (p : Part) : (p.setRec r v).builds = p.builds := rfl
@[simp] theorem Part.calls_setRec (r : Nat) (v : HoldRecord) (p : Part) : (p.setRec r v).calls = p.calls := rfl
@[simp] theorem Part.cal_setRec (r : Nat) (v : HoldRecord) (p : Part) : (p.setRec r v).cal = p.cal := rfl
@[simp] theorem Part.carriers_setRec (r : Nat) (v : HoldRecord) (p : Part) : (p.setRec r v).carriers = p.carriers := rfl
@[simp] theorem Part.notices_setRec (r : Nat) (v : HoldRecord) (p : Part) : (p.setRec r v).notices = p.notices := rfl
@[simp] theorem Part.build_setRec (r : Nat) (v : HoldRecord) (p : Part) (k : Nat) : (p.setRec r v).build k = p.build k := rfl
@[simp] theorem Part.call_setRec (r : Nat) (v : HoldRecord) (p : Part) (k : Nat) : (p.setRec r v).call k = p.call k := rfl
@[simp] theorem Part.lane_setRec (r : Nat) (v : HoldRecord) (p : Part) (k : Nat) : (p.setRec r v).lane k = p.lane k := rfl
@[simp] theorem Part.carrier_setRec (r : Nat) (v : HoldRecord) (p : Part) (k : Nat) : (p.setRec r v).carrier k = p.carrier k := rfl
@[simp] theorem Part.noticeQueue_setRec (r : Nat) (v : HoldRecord) (p : Part) (k : Nat) : (p.setRec r v).noticeQueue k = p.noticeQueue k := rfl
@[simp] theorem Part.order_q_setRec (r : Nat) (v : HoldRecord) (p : Part) (k : Nat) : (p.setRec r v).order? k = p.order? k := rfl
@[simp] theorem Part.orderAt_setRec (r : Nat) (v : HoldRecord) (p : Part) (k : Nat) : (p.setRec r v).orderAt k = p.orderAt k := rfl
@[simp] theorem Part.lineAt_setRec (r : Nat) (v : HoldRecord) (p : Part) (k j : Nat) : (p.setRec r v).lineAt k j = p.lineAt k j := rfl
@[simp] theorem Part.styleAt_setRec (r : Nat) (v : HoldRecord) (p : Part) (k : Nat) : (p.setRec r v).styleAt k = p.styleAt k := rfl
@[simp] theorem Part.counter_setRec (r : Nat) (v : HoldRecord) (p : Part) (k : Nat) : (p.setRec r v).counter k = p.counter k := rfl
@[simp] theorem Part.article_setRec (r : Nat) (v : HoldRecord) (p : Part) (k : Nat) : (p.setRec r v).article k = p.article k := rfl
@[simp] theorem Part.laneDir_setRec (r : Nat) (v : HoldRecord) (p : Part) (k : Nat) : (p.setRec r v).laneDir k = p.laneDir k := rfl
@[simp] theorem Part.bayDir_setRec (r : Nat) (v : HoldRecord) (p : Part) (k : Nat) : (p.setRec r v).bayDir k = p.bayDir k := rfl
@[simp] theorem Part.const_setRec (r : Nat) (v : HoldRecord) (p : Part) (k : Nat) : (p.setRec r v).const k = p.const k := rfl
@[simp] theorem Part.routing_setRec (r : Nat) (v : HoldRecord) (p : Part) (k : NoticeKind) : (p.setRec r v).routing k = p.routing k := rfl
@[simp] theorem Part.destination_setRec (r : Nat) (v : HoldRecord) (p : Part) (k : Nat) : (p.setRec r v).destination k = p.destination k := rfl
@[simp] theorem Part.step_setRec (r : Nat) (v : HoldRecord) (p : Part) (k : Nat) : (p.setRec r v).step k = p.step k := rfl
@[simp] theorem Part.useCount_setRec (r : Nat) (v : HoldRecord) (p : Part) (k : Nat) : (p.setRec r v).useCount k = p.useCount k := rfl
@[simp] theorem Part.node_setRec (r : Nat) (v : HoldRecord) (p : Part) : (p.setRec r v).node = p.node := rfl
@[simp] theorem Part.inert_setRec (r : Nat) (v : HoldRecord) (p : Part) : (p.setRec r v).inert = p.inert := rfl

/-! ### `Part.setCarrier` -/

@[simp] theorem Part.ring_setCarrier (c : Nat) (v : Carrier) (p : Part) : (p.setCarrier c v).ring = p.ring := rfl
@[simp] theorem Part.counters_setCarrier (c : Nat) (v : Carrier) (p : Part) : (p.setCarrier c v).counters = p.counters := rfl
@[simp] theorem Part.hall_setCarrier (c : Nat) (v : Carrier) (p : Part) : (p.setCarrier c v).hall = p.hall := rfl
@[simp] theorem Part.mode_setCarrier (c : Nat) (v : Carrier) (p : Part) : (p.setCarrier c v).mode = p.mode := rfl
@[simp] theorem Part.tables_setCarrier (c : Nat) (v : Carrier) (p : Part) : (p.setCarrier c v).tables = p.tables := rfl
@[simp] theorem Part.useCounts_setCarrier (c : Nat) (v : Carrier) (p : Part) : (p.setCarrier c v).useCounts = p.useCounts := rfl
@[simp] theorem Part.book_setCarrier (c : Nat) (v : Carrier) (p : Part) : (p.setCarrier c v).book = p.book := rfl
@[simp] theorem Part.builds_setCarrier (c : Nat) (v : Carrier) (p : Part) : (p.setCarrier c v).builds = p.builds := rfl
@[simp] theorem Part.pool_setCarrier (c : Nat) (v : Carrier) (p : Part) : (p.setCarrier c v).pool = p.pool := rfl
@[simp] theorem Part.calls_setCarrier (c : Nat) (v : Carrier) (p : Part) : (p.setCarrier c v).calls = p.calls := rfl
@[simp] theorem Part.cal_setCarrier (c : Nat) (v : Carrier) (p : Part) : (p.setCarrier c v).cal = p.cal := rfl
@[simp] theorem Part.notices_setCarrier (c : Nat) (v : Carrier) (p : Part) : (p.setCarrier c v).notices = p.notices := rfl
@[simp] theorem Part.build_setCarrier (c : Nat) (v : Carrier) (p : Part) (k : Nat) : (p.setCarrier c v).build k = p.build k := rfl
@[simp] theorem Part.call_setCarrier (c : Nat) (v : Carrier) (p : Part) (k : Nat) : (p.setCarrier c v).call k = p.call k := rfl
@[simp] theorem Part.lane_setCarrier (c : Nat) (v : Carrier) (p : Part) (k : Nat) : (p.setCarrier c v).lane k = p.lane k := rfl
@[simp] theorem Part.holdRec_setCarrier (c : Nat) (v : Carrier) (p : Part) (k : Nat) : (p.setCarrier c v).holdRec k = p.holdRec k := rfl
@[simp] theorem Part.noticeQueue_setCarrier (c : Nat) (v : Carrier) (p : Part) (k : Nat) : (p.setCarrier c v).noticeQueue k = p.noticeQueue k := rfl
@[simp] theorem Part.order_q_setCarrier (c : Nat) (v : Carrier) (p : Part) (k : Nat) : (p.setCarrier c v).order? k = p.order? k := rfl
@[simp] theorem Part.orderAt_setCarrier (c : Nat) (v : Carrier) (p : Part) (k : Nat) : (p.setCarrier c v).orderAt k = p.orderAt k := rfl
@[simp] theorem Part.lineAt_setCarrier (c : Nat) (v : Carrier) (p : Part) (k j : Nat) : (p.setCarrier c v).lineAt k j = p.lineAt k j := rfl
@[simp] theorem Part.styleAt_setCarrier (c : Nat) (v : Carrier) (p : Part) (k : Nat) : (p.setCarrier c v).styleAt k = p.styleAt k := rfl
@[simp] theorem Part.counter_setCarrier (c : Nat) (v : Carrier) (p : Part) (k : Nat) : (p.setCarrier c v).counter k = p.counter k := rfl
@[simp] theorem Part.article_setCarrier (c : Nat) (v : Carrier) (p : Part) (k : Nat) : (p.setCarrier c v).article k = p.article k := rfl
@[simp] theorem Part.laneDir_setCarrier (c : Nat) (v : Carrier) (p : Part) (k : Nat) : (p.setCarrier c v).laneDir k = p.laneDir k := rfl
@[simp] theorem Part.bayDir_setCarrier (c : Nat) (v : Carrier) (p : Part) (k : Nat) : (p.setCarrier c v).bayDir k = p.bayDir k := rfl
@[simp] theorem Part.const_setCarrier (c : Nat) (v : Carrier) (p : Part) (k : Nat) : (p.setCarrier c v).const k = p.const k := rfl
@[simp] theorem Part.routing_setCarrier (c : Nat) (v : Carrier) (p : Part) (k : NoticeKind) : (p.setCarrier c v).routing k = p.routing k := rfl
@[simp] theorem Part.destination_setCarrier (c : Nat) (v : Carrier) (p : Part) (k : Nat) : (p.setCarrier c v).destination k = p.destination k := rfl
@[simp] theorem Part.step_setCarrier (c : Nat) (v : Carrier) (p : Part) (k : Nat) : (p.setCarrier c v).step k = p.step k := rfl
@[simp] theorem Part.useCount_setCarrier (c : Nat) (v : Carrier) (p : Part) (k : Nat) : (p.setCarrier c v).useCount k = p.useCount k := rfl
@[simp] theorem Part.node_setCarrier (c : Nat) (v : Carrier) (p : Part) : (p.setCarrier c v).node = p.node := rfl
@[simp] theorem Part.inert_setCarrier (c : Nat) (v : Carrier) (p : Part) : (p.setCarrier c v).inert = p.inert := rfl

/-! ### `Part.setNoticeQueue` -/

@[simp] theorem Part.ring_setNoticeQueue (d : Nat) (v : NoticeQueue) (p : Part) : (p.setNoticeQueue d v).ring = p.ring := rfl
@[simp] theorem Part.counters_setNoticeQueue (d : Nat) (v : NoticeQueue) (p : Part) : (p.setNoticeQueue d v).counters = p.counters := rfl
@[simp] theorem Part.hall_setNoticeQueue (d : Nat) (v : NoticeQueue) (p : Part) : (p.setNoticeQueue d v).hall = p.hall := rfl
@[simp] theorem Part.mode_setNoticeQueue (d : Nat) (v : NoticeQueue) (p : Part) : (p.setNoticeQueue d v).mode = p.mode := rfl
@[simp] theorem Part.tables_setNoticeQueue (d : Nat) (v : NoticeQueue) (p : Part) : (p.setNoticeQueue d v).tables = p.tables := rfl
@[simp] theorem Part.useCounts_setNoticeQueue (d : Nat) (v : NoticeQueue) (p : Part) : (p.setNoticeQueue d v).useCounts = p.useCounts := rfl
@[simp] theorem Part.book_setNoticeQueue (d : Nat) (v : NoticeQueue) (p : Part) : (p.setNoticeQueue d v).book = p.book := rfl
@[simp] theorem Part.builds_setNoticeQueue (d : Nat) (v : NoticeQueue) (p : Part) : (p.setNoticeQueue d v).builds = p.builds := rfl
@[simp] theorem Part.pool_setNoticeQueue (d : Nat) (v : NoticeQueue) (p : Part) : (p.setNoticeQueue d v).pool = p.pool := rfl
@[simp] theorem Part.calls_setNoticeQueue (d : Nat) (v : NoticeQueue) (p : Part) : (p.setNoticeQueue d v).calls = p.calls := rfl
@[simp] theorem Part.cal_setNoticeQueue (d : Nat) (v : NoticeQueue) (p : Part) : (p.setNoticeQueue d v).cal = p.cal := rfl
@[simp] theorem Part.carriers_setNoticeQueue (d : Nat) (v : NoticeQueue) (p : Part) : (p.setNoticeQueue d v).carriers = p.carriers := rfl
@[simp] theorem Part.build_setNoticeQueue (d : Nat) (v : NoticeQueue) (p : Part) (k : Nat) : (p.setNoticeQueue d v).build k = p.build k := rfl
@[simp] theorem Part.call_setNoticeQueue (d : Nat) (v : NoticeQueue) (p : Part) (k : Nat) : (p.setNoticeQueue d v).call k = p.call k := rfl
@[simp] theorem Part.lane_setNoticeQueue (d : Nat) (v : NoticeQueue) (p : Part) (k : Nat) : (p.setNoticeQueue d v).lane k = p.lane k := rfl
@[simp] theorem Part.holdRec_setNoticeQueue (d : Nat) (v : NoticeQueue) (p : Part) (k : Nat) : (p.setNoticeQueue d v).holdRec k = p.holdRec k := rfl
@[simp] theorem Part.carrier_setNoticeQueue (d : Nat) (v : NoticeQueue) (p : Part) (k : Nat) : (p.setNoticeQueue d v).carrier k = p.carrier k := rfl
@[simp] theorem Part.order_q_setNoticeQueue (d : Nat) (v : NoticeQueue) (p : Part) (k : Nat) : (p.setNoticeQueue d v).order? k = p.order? k := rfl
@[simp] theorem Part.orderAt_setNoticeQueue (d : Nat) (v : NoticeQueue) (p : Part) (k : Nat) : (p.setNoticeQueue d v).orderAt k = p.orderAt k := rfl
@[simp] theorem Part.lineAt_setNoticeQueue (d : Nat) (v : NoticeQueue) (p : Part) (k j : Nat) : (p.setNoticeQueue d v).lineAt k j = p.lineAt k j := rfl
@[simp] theorem Part.styleAt_setNoticeQueue (d : Nat) (v : NoticeQueue) (p : Part) (k : Nat) : (p.setNoticeQueue d v).styleAt k = p.styleAt k := rfl
@[simp] theorem Part.counter_setNoticeQueue (d : Nat) (v : NoticeQueue) (p : Part) (k : Nat) : (p.setNoticeQueue d v).counter k = p.counter k := rfl
@[simp] theorem Part.article_setNoticeQueue (d : Nat) (v : NoticeQueue) (p : Part) (k : Nat) : (p.setNoticeQueue d v).article k = p.article k := rfl
@[simp] theorem Part.laneDir_setNoticeQueue (d : Nat) (v : NoticeQueue) (p : Part) (k : Nat) : (p.setNoticeQueue d v).laneDir k = p.laneDir k := rfl
@[simp] theorem Part.bayDir_setNoticeQueue (d : Nat) (v : NoticeQueue) (p : Part) (k : Nat) : (p.setNoticeQueue d v).bayDir k = p.bayDir k := rfl
@[simp] theorem Part.const_setNoticeQueue (d : Nat) (v : NoticeQueue) (p : Part) (k : Nat) : (p.setNoticeQueue d v).const k = p.const k := rfl
@[simp] theorem Part.routing_setNoticeQueue (d : Nat) (v : NoticeQueue) (p : Part) (k : NoticeKind) : (p.setNoticeQueue d v).routing k = p.routing k := rfl
@[simp] theorem Part.destination_setNoticeQueue (d : Nat) (v : NoticeQueue) (p : Part) (k : Nat) : (p.setNoticeQueue d v).destination k = p.destination k := rfl
@[simp] theorem Part.step_setNoticeQueue (d : Nat) (v : NoticeQueue) (p : Part) (k : Nat) : (p.setNoticeQueue d v).step k = p.step k := rfl
@[simp] theorem Part.useCount_setNoticeQueue (d : Nat) (v : NoticeQueue) (p : Part) (k : Nat) : (p.setNoticeQueue d v).useCount k = p.useCount k := rfl
@[simp] theorem Part.node_setNoticeQueue (d : Nat) (v : NoticeQueue) (p : Part) : (p.setNoticeQueue d v).node = p.node := rfl
@[simp] theorem Part.inert_setNoticeQueue (d : Nat) (v : NoticeQueue) (p : Part) : (p.setNoticeQueue d v).inert = p.inert := rfl

/-! ### `Part.modTables` -/

@[simp] theorem Part.ring_modTables (f : Tables → Tables) (p : Part) : (p.modTables f).ring = p.ring := rfl
@[simp] theorem Part.counters_modTables (f : Tables → Tables) (p : Part) : (p.modTables f).counters = p.counters := rfl
@[simp] theorem Part.hall_modTables (f : Tables → Tables) (p : Part) : (p.modTables f).hall = p.hall := rfl
@[simp] theorem Part.mode_modTables (f : Tables → Tables) (p : Part) : (p.modTables f).mode = p.mode := rfl
@[simp] theorem Part.useCounts_modTables (f : Tables → Tables) (p : Part) : (p.modTables f).useCounts = p.useCounts := rfl
@[simp] theorem Part.book_modTables (f : Tables → Tables) (p : Part) : (p.modTables f).book = p.book := rfl
@[simp] theorem Part.builds_modTables (f : Tables → Tables) (p : Part) : (p.modTables f).builds = p.builds := rfl
@[simp] theorem Part.pool_modTables (f : Tables → Tables) (p : Part) : (p.modTables f).pool = p.pool := rfl
@[simp] theorem Part.calls_modTables (f : Tables → Tables) (p : Part) : (p.modTables f).calls = p.calls := rfl
@[simp] theorem Part.cal_modTables (f : Tables → Tables) (p : Part) : (p.modTables f).cal = p.cal := rfl
@[simp] theorem Part.carriers_modTables (f : Tables → Tables) (p : Part) : (p.modTables f).carriers = p.carriers := rfl
@[simp] theorem Part.notices_modTables (f : Tables → Tables) (p : Part) : (p.modTables f).notices = p.notices := rfl
@[simp] theorem Part.build_modTables (f : Tables → Tables) (p : Part) (k : Nat) : (p.modTables f).build k = p.build k := rfl
@[simp] theorem Part.call_modTables (f : Tables → Tables) (p : Part) (k : Nat) : (p.modTables f).call k = p.call k := rfl
@[simp] theorem Part.lane_modTables (f : Tables → Tables) (p : Part) (k : Nat) : (p.modTables f).lane k = p.lane k := rfl
@[simp] theorem Part.holdRec_modTables (f : Tables → Tables) (p : Part) (k : Nat) : (p.modTables f).holdRec k = p.holdRec k := rfl
@[simp] theorem Part.carrier_modTables (f : Tables → Tables) (p : Part) (k : Nat) : (p.modTables f).carrier k = p.carrier k := rfl
@[simp] theorem Part.noticeQueue_modTables (f : Tables → Tables) (p : Part) (k : Nat) : (p.modTables f).noticeQueue k = p.noticeQueue k := rfl
@[simp] theorem Part.order_q_modTables (f : Tables → Tables) (p : Part) (k : Nat) : (p.modTables f).order? k = p.order? k := rfl
@[simp] theorem Part.orderAt_modTables (f : Tables → Tables) (p : Part) (k : Nat) : (p.modTables f).orderAt k = p.orderAt k := rfl
@[simp] theorem Part.lineAt_modTables (f : Tables → Tables) (p : Part) (k j : Nat) : (p.modTables f).lineAt k j = p.lineAt k j := rfl
@[simp] theorem Part.styleAt_modTables (f : Tables → Tables) (p : Part) (k : Nat) : (p.modTables f).styleAt k = p.styleAt k := rfl
@[simp] theorem Part.counter_modTables (f : Tables → Tables) (p : Part) (k : Nat) : (p.modTables f).counter k = p.counter k := rfl
@[simp] theorem Part.useCount_modTables (f : Tables → Tables) (p : Part) (k : Nat) : (p.modTables f).useCount k = p.useCount k := rfl
@[simp] theorem Part.node_modTables (f : Tables → Tables) (p : Part) : (p.modTables f).node = p.node := rfl
@[simp] theorem Part.inert_modTables (f : Tables → Tables) (p : Part) : (p.modTables f).inert = p.inert := rfl

/-! ### `Part.modUseCount` -/

@[simp] theorem Part.ring_modUseCount (s : Nat) (f : Nat → Nat) (p : Part) : (p.modUseCount s f).ring = p.ring := rfl
@[simp] theorem Part.counters_modUseCount (s : Nat) (f : Nat → Nat) (p : Part) : (p.modUseCount s f).counters = p.counters := rfl
@[simp] theorem Part.hall_modUseCount (s : Nat) (f : Nat → Nat) (p : Part) : (p.modUseCount s f).hall = p.hall := rfl
@[simp] theorem Part.mode_modUseCount (s : Nat) (f : Nat → Nat) (p : Part) : (p.modUseCount s f).mode = p.mode := rfl
@[simp] theorem Part.tables_modUseCount (s : Nat) (f : Nat → Nat) (p : Part) : (p.modUseCount s f).tables = p.tables := rfl
@[simp] theorem Part.book_modUseCount (s : Nat) (f : Nat → Nat) (p : Part) : (p.modUseCount s f).book = p.book := rfl
@[simp] theorem Part.builds_modUseCount (s : Nat) (f : Nat → Nat) (p : Part) : (p.modUseCount s f).builds = p.builds := rfl
@[simp] theorem Part.pool_modUseCount (s : Nat) (f : Nat → Nat) (p : Part) : (p.modUseCount s f).pool = p.pool := rfl
@[simp] theorem Part.calls_modUseCount (s : Nat) (f : Nat → Nat) (p : Part) : (p.modUseCount s f).calls = p.calls := rfl
@[simp] theorem Part.cal_modUseCount (s : Nat) (f : Nat → Nat) (p : Part) : (p.modUseCount s f).cal = p.cal := rfl
@[simp] theorem Part.carriers_modUseCount (s : Nat) (f : Nat → Nat) (p : Part) : (p.modUseCount s f).carriers = p.carriers := rfl
@[simp] theorem Part.notices_modUseCount (s : Nat) (f : Nat → Nat) (p : Part) : (p.modUseCount s f).notices = p.notices := rfl
@[simp] theorem Part.build_modUseCount (s : Nat) (f : Nat → Nat) (p : Part) (k : Nat) : (p.modUseCount s f).build k = p.build k := rfl
@[simp] theorem Part.call_modUseCount (s : Nat) (f : Nat → Nat) (p : Part) (k : Nat) : (p.modUseCount s f).call k = p.call k := rfl
@[simp] theorem Part.lane_modUseCount (s : Nat) (f : Nat → Nat) (p : Part) (k : Nat) : (p.modUseCount s f).lane k = p.lane k := rfl
@[simp] theorem Part.holdRec_modUseCount (s : Nat) (f : Nat → Nat) (p : Part) (k : Nat) : (p.modUseCount s f).holdRec k = p.holdRec k := rfl
@[simp] theorem Part.carrier_modUseCount (s : Nat) (f : Nat → Nat) (p : Part) (k : Nat) : (p.modUseCount s f).carrier k = p.carrier k := rfl
@[simp] theorem Part.noticeQueue_modUseCount (s : Nat) (f : Nat → Nat) (p : Part) (k : Nat) : (p.modUseCount s f).noticeQueue k = p.noticeQueue k := rfl
@[simp] theorem Part.order_q_modUseCount (s : Nat) (f : Nat → Nat) (p : Part) (k : Nat) : (p.modUseCount s f).order? k = p.order? k := rfl
@[simp] theorem Part.orderAt_modUseCount (s : Nat) (f : Nat → Nat) (p : Part) (k : Nat) : (p.modUseCount s f).orderAt k = p.orderAt k := rfl
@[simp] theorem Part.lineAt_modUseCount (s : Nat) (f : Nat → Nat) (p : Part) (k j : Nat) : (p.modUseCount s f).lineAt k j = p.lineAt k j := rfl
@[simp] theorem Part.styleAt_modUseCount (s : Nat) (f : Nat → Nat) (p : Part) (k : Nat) : (p.modUseCount s f).styleAt k = p.styleAt k := rfl
@[simp] theorem Part.counter_modUseCount (s : Nat) (f : Nat → Nat) (p : Part) (k : Nat) : (p.modUseCount s f).counter k = p.counter k := rfl
@[simp] theorem Part.article_modUseCount (s : Nat) (f : Nat → Nat) (p : Part) (k : Nat) : (p.modUseCount s f).article k = p.article k := rfl
@[simp] theorem Part.laneDir_modUseCount (s : Nat) (f : Nat → Nat) (p : Part) (k : Nat) : (p.modUseCount s f).laneDir k = p.laneDir k := rfl
@[simp] theorem Part.bayDir_modUseCount (s : Nat) (f : Nat → Nat) (p : Part) (k : Nat) : (p.modUseCount s f).bayDir k = p.bayDir k := rfl
@[simp] theorem Part.const_modUseCount (s : Nat) (f : Nat → Nat) (p : Part) (k : Nat) : (p.modUseCount s f).const k = p.const k := rfl
@[simp] theorem Part.routing_modUseCount (s : Nat) (f : Nat → Nat) (p : Part) (k : NoticeKind) : (p.modUseCount s f).routing k = p.routing k := rfl
@[simp] theorem Part.destination_modUseCount (s : Nat) (f : Nat → Nat) (p : Part) (k : Nat) : (p.modUseCount s f).destination k = p.destination k := rfl
@[simp] theorem Part.step_modUseCount (s : Nat) (f : Nat → Nat) (p : Part) (k : Nat) : (p.modUseCount s f).step k = p.step k := rfl
@[simp] theorem Part.node_modUseCount (s : Nat) (f : Nat → Nat) (p : Part) : (p.modUseCount s f).node = p.node := rfl
@[simp] theorem Part.inert_modUseCount (s : Nat) (f : Nat → Nat) (p : Part) : (p.modUseCount s f).inert = p.inert := rfl

/-! ### `Part.modOrder` -/

@[simp] theorem Part.ring_modOrder (n : Nat) (f : Order → Order) (p : Part) : (p.modOrder n f).ring = p.ring := by unfold Part.modOrder; split <;> rfl
@[simp] theorem Part.counters_modOrder (n : Nat) (f : Order → Order) (p : Part) : (p.modOrder n f).counters = p.counters := by unfold Part.modOrder; split <;> rfl
@[simp] theorem Part.hall_modOrder (n : Nat) (f : Order → Order) (p : Part) : (p.modOrder n f).hall = p.hall := by unfold Part.modOrder; split <;> rfl
@[simp] theorem Part.mode_modOrder (n : Nat) (f : Order → Order) (p : Part) : (p.modOrder n f).mode = p.mode := by unfold Part.modOrder; split <;> rfl
@[simp] theorem Part.tables_modOrder (n : Nat) (f : Order → Order) (p : Part) : (p.modOrder n f).tables = p.tables := by unfold Part.modOrder; split <;> rfl
@[simp] theorem Part.useCounts_modOrder (n : Nat) (f : Order → Order) (p : Part) : (p.modOrder n f).useCounts = p.useCounts := by unfold Part.modOrder; split <;> rfl
@[simp] theorem Part.builds_modOrder (n : Nat) (f : Order → Order) (p : Part) : (p.modOrder n f).builds = p.builds := by unfold Part.modOrder; split <;> rfl
@[simp] theorem Part.pool_modOrder (n : Nat) (f : Order → Order) (p : Part) : (p.modOrder n f).pool = p.pool := by unfold Part.modOrder; split <;> rfl
@[simp] theorem Part.calls_modOrder (n : Nat) (f : Order → Order) (p : Part) : (p.modOrder n f).calls = p.calls := by unfold Part.modOrder; split <;> rfl
@[simp] theorem Part.cal_modOrder (n : Nat) (f : Order → Order) (p : Part) : (p.modOrder n f).cal = p.cal := by unfold Part.modOrder; split <;> rfl
@[simp] theorem Part.carriers_modOrder (n : Nat) (f : Order → Order) (p : Part) : (p.modOrder n f).carriers = p.carriers := by unfold Part.modOrder; split <;> rfl
@[simp] theorem Part.notices_modOrder (n : Nat) (f : Order → Order) (p : Part) : (p.modOrder n f).notices = p.notices := by unfold Part.modOrder; split <;> rfl
@[simp] theorem Part.build_modOrder (n : Nat) (f : Order → Order) (p : Part) (k : Nat) : (p.modOrder n f).build k = p.build k := by unfold Part.modOrder; split <;> rfl
@[simp] theorem Part.call_modOrder (n : Nat) (f : Order → Order) (p : Part) (k : Nat) : (p.modOrder n f).call k = p.call k := by unfold Part.modOrder; split <;> rfl
@[simp] theorem Part.lane_modOrder (n : Nat) (f : Order → Order) (p : Part) (k : Nat) : (p.modOrder n f).lane k = p.lane k := by unfold Part.modOrder; split <;> rfl
@[simp] theorem Part.holdRec_modOrder (n : Nat) (f : Order → Order) (p : Part) (k : Nat) : (p.modOrder n f).holdRec k = p.holdRec k := by unfold Part.modOrder; split <;> rfl
@[simp] theorem Part.carrier_modOrder (n : Nat) (f : Order → Order) (p : Part) (k : Nat) : (p.modOrder n f).carrier k = p.carrier k := by unfold Part.modOrder; split <;> rfl
@[simp] theorem Part.noticeQueue_modOrder (n : Nat) (f : Order → Order) (p : Part) (k : Nat) : (p.modOrder n f).noticeQueue k = p.noticeQueue k := by unfold Part.modOrder; split <;> rfl
@[simp] theorem Part.counter_modOrder (n : Nat) (f : Order → Order) (p : Part) (k : Nat) : (p.modOrder n f).counter k = p.counter k := by unfold Part.modOrder; split <;> rfl
@[simp] theorem Part.article_modOrder (n : Nat) (f : Order → Order) (p : Part) (k : Nat) : (p.modOrder n f).article k = p.article k := by unfold Part.modOrder; split <;> rfl
@[simp] theorem Part.laneDir_modOrder (n : Nat) (f : Order → Order) (p : Part) (k : Nat) : (p.modOrder n f).laneDir k = p.laneDir k := by unfold Part.modOrder; split <;> rfl
@[simp] theorem Part.bayDir_modOrder (n : Nat) (f : Order → Order) (p : Part) (k : Nat) : (p.modOrder n f).bayDir k = p.bayDir k := by unfold Part.modOrder; split <;> rfl
@[simp] theorem Part.const_modOrder (n : Nat) (f : Order → Order) (p : Part) (k : Nat) : (p.modOrder n f).const k = p.const k := by unfold Part.modOrder; split <;> rfl
@[simp] theorem Part.routing_modOrder (n : Nat) (f : Order → Order) (p : Part) (k : NoticeKind) : (p.modOrder n f).routing k = p.routing k := by unfold Part.modOrder; split <;> rfl
@[simp] theorem Part.destination_modOrder (n : Nat) (f : Order → Order) (p : Part) (k : Nat) : (p.modOrder n f).destination k = p.destination k := by unfold Part.modOrder; split <;> rfl
@[simp] theorem Part.step_modOrder (n : Nat) (f : Order → Order) (p : Part) (k : Nat) : (p.modOrder n f).step k = p.step k := by unfold Part.modOrder; split <;> rfl
@[simp] theorem Part.useCount_modOrder (n : Nat) (f : Order → Order) (p : Part) (k : Nat) : (p.modOrder n f).useCount k = p.useCount k := by unfold Part.modOrder; split <;> rfl
@[simp] theorem Part.node_modOrder (n : Nat) (f : Order → Order) (p : Part) : (p.modOrder n f).node = p.node := by unfold Part.modOrder; split <;> rfl
@[simp] theorem Part.inert_modOrder (n : Nat) (f : Order → Order) (p : Part) : (p.modOrder n f).inert = p.inert := by unfold Part.modOrder; split <;> rfl

/-! ### The Ring Port -/

@[simp] theorem Part.slot_putSlot (f : Frame) (p : Part) : (p.putSlot f).ring.slot = f := rfl
@[simp] theorem Part.straps_putSlot (f : Frame) (p : Part) : (p.putSlot f).ring.straps = p.ring.straps := rfl
@[simp] theorem Part.resetHeld_putSlot (f : Frame) (p : Part) : (p.putSlot f).ring.resetHeld = p.ring.resetHeld := rfl
@[simp] theorem Part.urgent_putSlot (f : Frame) (p : Part) : (p.putSlot f).ring.urgent = p.ring.urgent := rfl
@[simp] theorem Part.normal_putSlot (f : Frame) (p : Part) : (p.putSlot f).ring.normal = p.ring.normal := rfl
@[simp] theorem Part.left_putSlot (f : Frame) (p : Part) : (p.putSlot f).ring.left = p.ring.left := rfl
@[simp] theorem Part.slot_modNormal (f : List Post → List Post) (p : Part) :
    (p.modNormal f).ring.slot = p.ring.slot := rfl
@[simp] theorem Part.straps_modNormal (f : List Post → List Post) (p : Part) :
    (p.modNormal f).ring.straps = p.ring.straps := rfl
@[simp] theorem Part.resetHeld_modNormal (f : List Post → List Post) (p : Part) :
    (p.modNormal f).ring.resetHeld = p.ring.resetHeld := rfl
@[simp] theorem Part.urgent_modNormal (f : List Post → List Post) (p : Part) :
    (p.modNormal f).ring.urgent = p.ring.urgent := rfl
@[simp] theorem Part.normal_modNormal (f : List Post → List Post) (p : Part) :
    (p.modNormal f).ring.normal = f p.ring.normal := rfl
@[simp] theorem Part.left_modNormal (f : List Post → List Post) (p : Part) :
    (p.modNormal f).ring.left = p.ring.left := rfl

/-! ### Reads of the store written -/

/-- The counter that counts, saturated (R25). -/
@[simp] theorem Part.counter_count_self (c : Counter) (p : Part) :
    (p.count c).counter c.index = min Config.counterMax (p.counter c.index + 1) := by
  simp [Part.count, Part.counter]

theorem Part.counter_count_ne (c : Counter) (p : Part) {i : Nat} (h : i ≠ c.index) :
    (p.count c).counter i = p.counter i := by
  simp [Part.count, Part.counter, Map.get_set_ne _ _ _ h]

theorem Part.build_modBuild (b : Nat) (f : Build → Build) (p : Part) (k : Nat) :
    (p.modBuild b f).build k = if k = b then f (p.build b) else p.build k := by
  simp [Part.modBuild, Part.build, Map.get_set]

@[simp] theorem Part.build_modBuild_self (b : Nat) (f : Build → Build) (p : Part) :
    (p.modBuild b f).build b = f (p.build b) := by simp [Part.build_modBuild]

theorem Part.build_modBuild_ne (b : Nat) (f : Build → Build) (p : Part) {k : Nat} (h : k ≠ b) :
    (p.modBuild b f).build k = p.build k := by simp [Part.build_modBuild, h]

theorem Part.call_modCall (i : Nat) (f : Call → Call) (p : Part) (k : Nat) :
    (p.modCall i f).call k = if k = i then f (p.call i) else p.call k := by
  simp [Part.modCall, Part.call, Map.get_set]

@[simp] theorem Part.call_modCall_self (i : Nat) (f : Call → Call) (p : Part) :
    (p.modCall i f).call i = f (p.call i) := by simp [Part.call_modCall]

theorem Part.call_modCall_ne (i : Nat) (f : Call → Call) (p : Part) {k : Nat} (h : k ≠ i) :
    (p.modCall i f).call k = p.call k := by simp [Part.call_modCall, h]

@[simp] theorem Part.seq_modCall (i : Nat) (f : Call → Call) (p : Part) :
    (p.modCall i f).calls.seq = p.calls.seq := rfl

@[simp] theorem Part.lanes_modCall (i : Nat) (f : Call → Call) (p : Part) :
    (p.modCall i f).calls.lanes = p.calls.lanes := rfl

theorem Part.lane_modLane (l : Nat) (f : Lane → Lane) (p : Part) (k : Nat) :
    (p.modLane l f).lane k = if k = l then f (p.lane l) else p.lane k := by
  simp [Part.modLane, Part.lane, Map.get_set]

@[simp] theorem Part.lane_modLane_self (l : Nat) (f : Lane → Lane) (p : Part) :
    (p.modLane l f).lane l = f (p.lane l) := by simp [Part.lane_modLane]

theorem Part.lane_modLane_ne (l : Nat) (f : Lane → Lane) (p : Part) {k : Nat} (h : k ≠ l) :
    (p.modLane l f).lane k = p.lane k := by simp [Part.lane_modLane, h]

@[simp] theorem Part.seq_modLane (l : Nat) (f : Lane → Lane) (p : Part) :
    (p.modLane l f).calls.seq = p.calls.seq := rfl

@[simp] theorem Part.recs_modLane (l : Nat) (f : Lane → Lane) (p : Part) :
    (p.modLane l f).calls.recs = p.calls.recs := rfl

theorem Part.holdRec_setRec (r : Nat) (v : HoldRecord) (p : Part) (k : Nat) :
    (p.setRec r v).holdRec k = if k = r then v else p.holdRec k := by
  simp [Part.setRec, Part.holdRec, Map.get_set]

@[simp] theorem Part.holdRec_setRec_self (r : Nat) (v : HoldRecord) (p : Part) :
    (p.setRec r v).holdRec r = v := by simp [Part.holdRec_setRec]

theorem Part.holdRec_setRec_ne (r : Nat) (v : HoldRecord) (p : Part) {k : Nat} (h : k ≠ r) :
    (p.setRec r v).holdRec k = p.holdRec k := by simp [Part.holdRec_setRec, h]

@[simp] theorem Part.free_setRec (r : Nat) (v : HoldRecord) (p : Part) : (p.setRec r v).pool.free = p.pool.free := rfl

@[simp] theorem Part.armed_setRec (r : Nat) (v : HoldRecord) (p : Part) : (p.setRec r v).pool.armed = p.pool.armed := rfl

theorem Part.carrier_setCarrier (c : Nat) (v : Carrier) (p : Part) (k : Nat) :
    (p.setCarrier c v).carrier k = if k = c then v else p.carrier k := by
  simp [Part.setCarrier, Part.carrier, Map.get_set]

@[simp] theorem Part.carrier_setCarrier_self (c : Nat) (v : Carrier) (p : Part) :
    (p.setCarrier c v).carrier c = v := by simp [Part.carrier_setCarrier]

theorem Part.carrier_setCarrier_ne (c : Nat) (v : Carrier) (p : Part) {k : Nat} (h : k ≠ c) :
    (p.setCarrier c v).carrier k = p.carrier k := by simp [Part.carrier_setCarrier, h]

theorem Part.noticeQueue_setNoticeQueue (d : Nat) (v : NoticeQueue) (p : Part) (k : Nat) :
    (p.setNoticeQueue d v).noticeQueue k = if k = d then v else p.noticeQueue k := by
  simp [Part.setNoticeQueue, Part.noticeQueue, Map.get_set]

@[simp] theorem Part.noticeQueue_setNoticeQueue_self (d : Nat) (v : NoticeQueue) (p : Part) :
    (p.setNoticeQueue d v).noticeQueue d = v := by simp [Part.noticeQueue_setNoticeQueue]

theorem Part.noticeQueue_setNoticeQueue_ne (d : Nat) (v : NoticeQueue) (p : Part) {k : Nat} (h : k ≠ d) :
    (p.setNoticeQueue d v).noticeQueue k = p.noticeQueue k := by simp [Part.noticeQueue_setNoticeQueue, h]

theorem Part.useCount_modUseCount (s : Nat) (f : Nat → Nat) (p : Part) (k : Nat) :
    (p.modUseCount s f).useCount k = if k = s then f (p.useCount s) else p.useCount k := by
  simp [Part.modUseCount, Part.useCount, Map.get_set]

/-- A live order changed: every other live order reads as before, and a number no live record carries stays so. -/
theorem Part.order_q_modOrder (n : Nat) (f : Order → Order) (p : Part) (k : Nat) :
    (p.modOrder n f).order? k = if k = n then (p.order? n).map f else p.order? k := by
  unfold Part.modOrder
  split
  · next h => by_cases hk : k = n <;> simp [hk, h]
  · next o h =>
    by_cases hk : k = n
    · subst hk; simp [Part.order?] at h ⊢; simp [h]
    · simp [Part.order?, hk, Map.find?_put_ne _ _ hk]

@[simp] theorem Part.bookSeq_modOrder (n : Nat) (f : Order → Order) (p : Part) :
    (p.modOrder n f).book.seq = p.book.seq := by unfold Part.modOrder; split <;> rfl

end Sys2Proof.Machine
end

