-- ==== Sys2Proof/Laws/Kept.lean ====
section
/-! SUPPORT. What the part's operations keep. A property of the part that the primitive writes keep (`Kept`) is kept by
every operation of the blocks, whatever a LANE_OFFLINE routing action does, so long as that keeps it too. One lemma per
operation, named after it. -/

namespace Sys2Proof.Machine

/-- A property of the part that every primitive write of the blocks keeps. The writes of the hall time, the tables, the
part mode, the straps and the slot, the reply of a request and the Order Book's own growth are not among them. -/
structure Kept (P : Part → Prop) : Prop where
  count : ∀ (c : Counter) {p : Part}, P p → P (p.count c)
  modBuild : ∀ (b : Nat) (f : Build → Build) {p : Part}, P p → P (p.modBuild b f)
  modCall : ∀ (i : Nat) (f : Call → Call) {p : Part}, P p → P (p.modCall i f)
  modLane : ∀ (l : Nat) (f : Lane → Lane) {p : Part}, P p → P (p.modLane l f)
  setRec : ∀ (r : Nat) (v : HoldRecord) {p : Part}, P p → P (p.setRec r v)
  setCarrier : ∀ (c : Nat) (v : Carrier) {p : Part}, P p → P (p.setCarrier c v)
  modOrder : ∀ (n : Nat) (f : Order → Order) {p : Part}, P p → P (p.modOrder n f)
  modUseCount : ∀ (s : Nat) (f : Nat → Nat) {p : Part}, P p → P (p.modUseCount s f)
  post : ∀ (x : Post) {p p' : Part}, p.post x = some p' → P p → P p'
  pool : ∀ (v : HoldPool) {p : Part}, P p → P { p with pool := v }
  cal : ∀ (v : InductionCalendar) {p : Part}, P p → P { p with cal := v }
  callSeq : ∀ (n : Count32) {p : Part}, P p → P { p with calls := { p.calls with seq := n } }
  carriers : ∀ (v : Map Carrier) {p : Part}, P p → P { p with carriers := v }
  queueNotice : ∀ (d : Nat) (e : NoticeEntry) {p : Part}, P p → P (p.queueNotice d e)
  postAttempt : ∀ (d : Nat) {p : Part}, P p → P (p.postAttempt d)

theorem kept_ite {P : Part → Prop} {c : Prop} [Decidable c] {a b : Part} (ha : P a) (hb : P b) :
    P (if c then a else b) := by split <;> assumption

theorem kept_foldl {P : Part → Prop} {α : Type} {f : Part → α → Part} (hf : ∀ q a, P q → P (f q a)) (l : List α)
    {p : Part} (h : P p) : P (l.foldl f p) := by
  induction l generalizing p with
  | nil => exact h
  | cons a l ih => exact ih (hf p a h)

namespace Kept

variable {P : Part → Prop} (K : Kept P) {p : Part}
include K

/-! ### Line counts, weight, notices -/

theorem modLine (b i : Nat) (f : Line → Line) (h : P p) : P (p.modLine b i f) := K.modOrder _ _ h

theorem move (b i : Nat) (x y : Place) (k : Nat) (h : P p) : P (p.move b i x y k) := K.modLine _ _ _ h

theorem weigh (b up down : Nat) (h : P p) : P (p.weigh b up down) := K.modBuild _ _ h

theorem postOrDrop (x : Post) (h : P p) : P (p.postOrDrop x) := by
  unfold Part.postOrDrop
  cases hx : p.post x with
  | none => exact h
  | some p' => exact K.post x hx h

theorem notify (n : Notice) (h : P p) : P (p.notify n) := by
  unfold Part.notify
  exact kept_ite h (K.queueNotice _ _ h)

theorem retryNotice (d : Nat) (h : P p) : P (p.retryNotice d) := kept_ite (K.postAttempt d h) h

/-! ### Returns -/

theorem release (b : Nat) (h : P p) : P (p.release b) := by
  unfold Part.release
  dsimp only
  split
  · next hx => exact K.modBuild _ _ (K.post _ hx h)
  · exact K.modBuild _ _ h

theorem markPosted (b r : Nat) (h : P p) : P (p.markPosted b r) := by
  unfold Part.markPosted
  dsimp only
  split
  · exact kept_ite (K.setCarrier _ _ (K.setRec _ _ h)) (K.setRec _ _ h)
  · exact K.setRec _ _ h

theorem postReturnFrames (b : Nat) (l : List (List Nat)) (h : P p) : P (p.postReturnFrames b l) := by
  induction l generalizing p with
  | nil => exact h
  | cons g rest ih =>
    unfold Part.postReturnFrames
    split
    · exact h
    · next hx => exact ih (kept_foldl (fun q r hq => K.markPosted b r hq) g (K.post _ hx h))

theorem postReturns (b : Nat) (h : P p) : P (p.postReturns b) := K.postReturnFrames b _ h

theorem postPending (b : Nat) (l : List Post) (h : P p) : P (p.postPending b l) := by
  induction l generalizing p with
  | nil => exact K.modBuild _ _ h
  | cons x rest ih =>
    unfold Part.postPending
    split
    · exact ih h
    · split
      · exact K.modBuild _ _ h
      · next hx => exact ih (K.post _ hx h)

theorem retryBuild (b : Nat) (h : P p) : P (p.retryBuild b) := by
  unfold Part.retryBuild
  dsimp only
  have h' := kept_ite (c := (p.build b).pending = []) h (K.postPending b (p.build b).pending h)
  exact kept_ite (K.postReturns b h') h'

theorem repost (b : Nat) (x : Post) (h : P p) : P (p.repost b x) := by
  unfold Part.repost
  split
  · next hx => exact K.post _ hx h
  · exact K.modBuild _ _ h

/-! ### Finish walks, as far as they raise no notice -/

theorem useStyle (s : Nat) (h : P p) : P (p.useStyle s) := kept_ite h (K.modUseCount _ _ h)

theorem dropStyle (s : Nat) (h : P p) : P (p.dropStyle s) := kept_ite h (K.modUseCount _ _ h)

theorem postStep (b : Nat) (x : Post) (h : P p) : P (p.postStep b x) := by
  unfold Part.postStep
  split
  · next hx => exact K.modBuild _ _ (K.post _ hx h)
  · exact K.modBuild _ _ h

theorem endWalk (b : Nat) (h : P p) : P (p.endWalk b) := K.release b (K.modBuild _ _ (K.dropStyle _ h))

theorem advancePointer (b : Nat) (h : P p) : P (p.advancePointer b) := K.modBuild _ _ h

theorem stopStepTimer (b : Nat) (h : P p) : P (p.stopStepTimer b) := K.modBuild _ _ h

theorem retryStep (b : Nat) (h : P p) : P (p.retryStep b) := by
  unfold Part.retryStep
  split
  · exact h
  · exact K.postStep b _ h

theorem backToFinishing (b : Nat) (h : P p) : P (p.backToFinishing b) := K.useStyle _ (K.modBuild _ _ h)

theorem reportLeft (h : P p) : P p.reportLeft :=
  kept_foldl (fun _ d hq => K.retryNotice d hq) _
    (kept_foldl (fun _ b hq => K.retryStep b (K.retryBuild b hq)) _ h)

/-! ### Queues of lanes and records -/

theorem leaveLane (l i : Nat) (h : P p) : P (p.leaveLane l i) := K.modLane _ _ h
theorem joinTail (l i : Nat) (h : P p) : P (p.joinTail l i) := K.modLane _ _ h
theorem joinHead (l i : Nat) (h : P p) : P (p.joinHead l i) := K.modLane _ _ h
theorem freeCall (i : Nat) (h : P p) : P (p.freeCall i) := K.modCall _ _ (K.leaveLane _ _ h)
theorem defer (i : Nat) (h : P p) : P (p.defer i) := K.modCall _ _ h
theorem undefer (i : Nat) (h : P p) : P (p.undefer i) := K.modCall _ _ h

theorem takeCall (b i j : Nat) (m : LineMode) (pos art : Nat) (h : P p) : P (p.takeCall b i j m pos art) := by
  unfold Part.takeCall
  split
  · exact K.count _ h
  · exact K.weigh _ _ _ (K.move _ _ _ _ _ (K.joinTail _ _ (K.callSeq _ (K.modCall _ _ h))))

/-! ### The pool -/

theorem freeHold (r : Nat) (h : P p) : P (p.freeHold r) := K.pool _ (K.setRec _ _ h)

theorem append (b r : Nat) (h : P p) : P (p.append b r) := K.modBuild _ _ h

theorem releaseReservation (b r : Nat) (h : P p) : P (p.releaseReservation b r) := K.modBuild _ _ (K.freeHold r h)

theorem unlink (b r : Nat) (h : P p) : P (p.unlink b r) := K.freeHold r (K.modBuild _ _ h)

theorem splice (b : Nat) (h : P p) : P (p.splice b) := by
  unfold Part.splice
  dsimp only
  apply K.modBuild
  exact K.pool _ (kept_foldl (fun _ r hq => K.setRec r {} hq) _ h)

theorem markWanted (r : Nat) (h : P p) : P (p.markWanted r) := by
  unfold Part.markWanted
  dsimp only
  exact kept_ite (K.setRec _ _ h) h

theorem expireRecord (b r : Nat) (h : P p) : P (p.expireRecord b r) := by
  unfold Part.expireRecord
  dsimp only
  split
  · exact kept_ite (K.modBuild _ _ (K.move _ _ _ _ _ (K.setRec _ _ h))) h
  · exact h

/-! ### The calendar -/

theorem reloadCredits (h : P p) : P p.reloadCredits := K.cal _ h

theorem spendCredit (z : Zone) (h : P p) : P (p.spendCredit z) := K.cal _ h

theorem sendCall (l r : Nat) (h : P p) : P (p.sendCall l r) := by
  unfold Part.sendCall
  dsimp only
  split
  · exact K.count _ h
  · next hx => exact K.modCall _ _ (K.modLane _ _ (K.leaveLane _ _ (K.post _ hx h)))

theorem serveZone (z : Zone) (h : P p) : P (p.serveZone z) := by
  unfold Part.serveZone
  split
  · exact h
  · exact K.sendCall _ _ (K.spendCredit z h)

theorem freeSelection (h : P p) : P p.freeSelection := by
  unfold Part.freeSelection
  split
  · exact K.serveZone _ h
  · split
    · dsimp only
      split
      · exact K.serveZone _ (K.reloadCredits h)
      · exact K.reloadCredits h
    · exact h

theorem opportunity (h : P p) : P p.opportunity := by
  unfold Part.opportunity
  have h' : P { p with cal := { p.cal with pointer := p.pointerAfter } } := K.cal _ h
  dsimp only
  split
  · exact K.freeSelection h'
  · split
    · exact K.sendCall _ _ h'
    · exact K.freeSelection h'

/-! ### Carriers, as far as they raise no notice -/

theorem countLight (g : Sight) (a : Nat) (h : P p) : P (p.countLight g a) := kept_ite (K.count _ h) h

theorem steerGranted (c b i r : Nat) (h : P p) : P (p.steerGranted c b i r) := by
  unfold Part.steerGranted
  dsimp only
  split
  · next hx => exact K.setCarrier _ _ (K.post _ hx (K.modBuild _ _ (K.setRec _ _ h)))
  · exact K.count _ (K.releaseReservation _ _ (K.modBuild _ _ (K.setRec _ _ h)))

theorem foreignRecorded (c b r : Nat) (h : P p) : P (p.foreignRecorded c b r) :=
  K.postReturns b (K.setCarrier _ _ (K.count _ (K.modBuild _ _ (K.append _ _ (K.setRec _ _ h)))))

theorem nameSurplus (a c : Nat) (h : P p) : P (p.nameSurplus a c) := kept_ite (K.setCarrier _ _ h) (K.count _ h)

theorem creditCarrier (r c : Nat) (h : P p) : P (p.creditCarrier r c) := by
  unfold Part.creditCarrier
  split
  · exact K.move _ _ _ _ _ (K.modCall _ _ (K.setCarrier _ _ h))
  · exact K.count _ h

theorem setBlocked (b : Nat) (f : Bool) (h : P p) : P (p.setBlocked b f) := K.modBuild _ _ h

theorem clearStockOut (l : Nat) (h : P p) : P (p.clearStockOut l) := by
  unfold Part.clearStockOut
  refine kept_ite (kept_foldl (fun q r hq => ?_) _ (K.modLane _ _ h)) h
  exact kept_ite (K.undefer r hq) hq

theorem giveUpForeign (b r : Nat) (h : P p) : P (p.giveUpForeign b r) := by
  unfold Part.giveUpForeign
  dsimp only
  split
  · exact h
  · apply K.unlink
    split
    · exact K.setCarrier _ _ h
    · exact K.setCarrier _ _ h
    · exact h

theorem giveUpBay (b : Nat) (h : P p) : P (p.giveUpBay b) := by
  unfold Part.giveUpBay
  exact kept_ite (K.modBuild _ _ (kept_foldl (fun _ r hq => K.giveUpForeign b r hq) _ h)) h

/-! ### Operations that can raise a notice -/

section Raising

variable {off : LaneAction} (hoff : ∀ l {q : Part}, P q → P (off l q))
include hoff

theorem routeAction (n : Notice) (h : P p) : P (p.routeAction off n) := by
  unfold Part.routeAction
  split
  · exact h
  · exact kept_ite h (K.modBuild _ _ h)
  · exact kept_ite (hoff _ h) h

theorem raise (n : Notice) (h : P p) : P (p.raise off n) := K.routeAction hoff n (K.notify n h)

theorem stopBuild (b : Nat) (c : StopCause) (h : P p) : P (p.stopBuild off b c) :=
  K.raise hoff _ (K.dropStyle _ (K.modBuild _ _ h))

theorem walk (n b : Nat) (h : P p) : P (p.walk off n b) := by
  induction n generalizing p with
  | zero => exact K.stopBuild hoff b _ h
  | succ n ih =>
    unfold Part.walk
    dsimp only
    split
    · exact K.stopBuild hoff b _ h
    · split
      · exact K.stopBuild hoff b _ h
      · exact K.endWalk b h
      · exact K.modBuild _ _ h
      · exact K.postStep b _ h
      · exact ih (K.advancePointer b (K.raise hoff _ h))

theorem executeStep (b : Nat) (h : P p) : P (p.executeStep off b) := K.walk hoff _ b h

theorem nextStep (b : Nat) (h : P p) : P (p.nextStep off b) := K.executeStep hoff b (K.advancePointer b h)

theorem enterFinishing (b : Nat) (h : P p) : P (p.enterFinishing off b) :=
  K.executeStep hoff b (K.useStyle _ (K.modBuild _ _ h))

theorem gathered (b : Nat) (h : P p) : P (p.gathered off b) := kept_ite (K.release b h) (K.enterFinishing hoff b h)

theorem enterShortHold (b : Nat) (h : P p) : P (p.enterShortHold off b) := K.raise hoff _ (K.modBuild _ _ h)

theorem completionTest (b : Nat) (h : P p) : P (p.completionTest off b) := by
  unfold Part.completionTest
  split
  · exact h
  · split
    · exact kept_ite (K.enterShortHold hoff b (K.modBuild _ _ h)) (K.gathered hoff b (K.modBuild _ _ h))
    · exact h

theorem short (b i k : Nat) (x : Place) (c : ShortCause) (l : Nat) (h : P p) : P (p.short off b i k x c l) := by
  unfold Part.short
  split
  · exact h
  · exact kept_ite h (K.completionTest hoff b (K.raise hoff _ (K.modLine _ _ _ h)))

theorem requestPlain (b i c : Nat) (l : Line) (h : P p) : P (p.requestPlain off b i c l) := by
  unfold Part.requestPlain
  dsimp only
  have hs := fun k x c l => K.short hoff b i k x c l h
  exact kept_ite (hs _ _ _ _) (kept_ite (hs _ _ _ _) (kept_ite (hs _ _ _ _) (kept_ite (hs _ _ _ _)
    (kept_ite (hs _ _ _ _) (K.takeCall _ _ _ _ _ _ (hs _ _ _ _))))))

theorem requestSubstitute (b i c : Nat) (l : Line) (h : P p) : P (p.requestSubstitute off b i c l) := by
  unfold Part.requestSubstitute
  split
  · exact K.takeCall _ _ _ _ _ _ (K.modLine _ _ _ h)
  · exact K.short hoff _ _ _ _ _ _ (K.modLine _ _ _ h)

theorem request (b i : Nat) (h : P p) : P (p.request off b i) := by
  unfold Part.request
  split
  · exact h
  · split
    · exact h
    · exact kept_ite h (kept_ite (K.requestSubstitute hoff _ _ _ _ h) (K.requestPlain hoff _ _ _ _ h))

theorem offerUpTo (n r : Nat) (h : P p) : P (p.offerUpTo off n r) := by
  induction n generalizing p with
  | zero => exact h
  | succ n ih =>
    unfold Part.offerUpTo
    split
    · exact h
    · split
      · exact h
      · exact ih (K.request hoff _ _ h)

theorem offer (r : Nat) (h : P p) : P (p.offer off r) := K.offerUpTo hoff _ r h

theorem freeAndOffer (r : Nat) (h : P p) : P (p.freeAndOffer off r) := K.offer hoff r (K.freeCall r h)

theorem goShort (r : Nat) (c : ShortCause) (l : Nat) (h : P p) : P (p.goShort off r c l) :=
  K.freeAndOffer hoff r (K.short hoff _ _ _ _ _ _ (K.weigh _ _ _ (K.modCall _ _ (K.leaveLane _ _ h))))

theorem moveOn (r : Nat) (h : P p) : P (p.moveOn off r) := by
  unfold Part.moveOn
  dsimp only
  split
  · have h' := K.weigh (p.call r).bay 0 ((p.call r).count * (p.call r).nominal) (K.leaveLane (p.call r).lane r h)
    split
    · exact K.weigh _ _ _ (K.joinTail _ _ (K.modCall _ _ (K.modLine _ _ _ h')))
    · exact K.freeAndOffer hoff r (K.short hoff _ _ _ _ _ _ (K.modCall _ _ (K.modLine _ _ _ h')))
  · exact K.freeAndOffer hoff r h

theorem resolveOne (s : Bool) (l r : Nat) (h : P p) : P (p.resolveOne off s l r) := by
  unfold Part.resolveOne
  split
  · split
    · exact K.goShort hoff _ _ _ h
    · exact K.moveOn hoff _ h
    · exact kept_ite (K.defer _ h) h
  · exact h

theorem resolveQueue (s : Bool) (l : Nat) (h : P p) : P (p.resolveQueue off s l) :=
  kept_foldl (fun _ r hq => K.resolveOne hoff s l r hq) _ h

theorem goOffline (l : Nat) (h : P p) : P (p.goOffline off l) := K.resolveQueue hoff _ l (K.modLane _ _ h)

theorem setStockOut (l : Nat) (n : Notice) (h : P p) : P (p.setStockOut off l n) :=
  kept_ite h (K.raise hoff _ (K.resolveQueue hoff _ l (K.modLane _ _ h)))

theorem applyStock (l : Nat) (s : Bool) (n : Notice) (h : P p) : P (p.applyStock off l s n) :=
  kept_ite (K.setStockOut hoff l n h) (K.clearStockOut l h)

theorem miss (l : Nat) (n : Notice) (h : P p) : P (p.miss off l n) := by
  unfold Part.miss
  dsimp only
  exact kept_ite (K.resolveQueue hoff _ l (K.raise hoff _ (K.modLane _ _ (K.modLane _ _ h)))) (K.modLane _ _ h)

theorem meetLane (r : Nat) (h : P p) : P (p.meetLane off r) := by
  unfold Part.meetLane
  dsimp only
  split
  · exact K.goShort hoff _ _ _ h
  · split
    · split
      · exact K.goShort hoff _ _ _ h
      · exact K.moveOn hoff _ h
      · exact h
    · split
      · split
        · exact K.goShort hoff _ _ _ h
        · exact K.moveOn hoff _ h
        · exact K.defer _ h
      · exact h

theorem returnToQueue (r : Nat) (h : P p) : P (p.returnToQueue off r) :=
  K.meetLane hoff r (K.joinHead _ _ (K.modCall _ _ (K.leaveLane _ _ h)))

theorem sentLost (r : Nat) (h : P p) : P (p.sentLost off r) := K.miss hoff _ _ (K.returnToQueue hoff r h)

/-! ### Binding, abort, drain, chill -/

theorem openBuild (b n : Nat) (h : P p) : P (p.openBuild off b n) :=
  K.completionTest hoff b (kept_foldl (fun _ i hq => K.request hoff b i hq) _ (K.modBuild _ _ h))

theorem bind (b n : Nat) (h : P p) : P (p.bind off b n) := K.raise hoff _ (K.openBuild hoff b n (K.modOrder _ _ h))

theorem serve (b : Nat) (h : P p) : P (p.serve off b) := by
  unfold Part.serve
  split
  · exact h
  · exact K.bind hoff _ _ h

theorem bindingEvent (l : List Nat) (h : P p) : P (p.bindingEvent off l) :=
  kept_foldl (fun _ b hq => K.serve hoff b hq) _ h

theorem drainTest (b : Nat) (h : P p) : P (p.drainTest off b) := by
  unfold Part.drainTest
  exact kept_ite (kept_ite (K.modBuild _ _ h) (K.bindingEvent hoff _ (K.modBuild _ _ h))) h

theorem handOver (b : Nat) (h : P p) : P (p.handOver off b) := by
  unfold Part.handOver
  apply K.drainTest hoff
  apply K.postReturns
  apply kept_foldl (fun _ r hq => K.markWanted r hq)
  apply K.carriers
  apply K.modBuild
  apply kept_foldl (fun _ r hq => K.modCall r _ hq)
  apply kept_foldl (fun _ r hq => kept_ite (K.freeAndOffer hoff r hq) hq)
  exact h

theorem abort (b : Nat) (k : AbortKind) (h : P p) : P (p.abort off b k) := by
  unfold Part.abort
  dsimp only
  have h1 := K.modOrder (p.build b).order (Order.aborted k) h
  have h2 := kept_ite (c := (p.build b).state = .finishing) (K.dropStyle (p.styleAt b) h1) h1
  have h3 := K.modBuild b Build.aborted h2
  exact K.handOver hoff b (kept_ite (K.bindingEvent hoff _ h3) h3)

theorem chillExpires (b : Nat) (h : P p) : P (p.chillExpires off b) := by
  unfold Part.chillExpires
  dsimp only
  have h1 := K.raise hoff { kind := .chillExpiry, bay := b, order := (p.build b).order }
    (K.modBuild b (fun x => { x with chillCount := min 15 (x.chillCount + 1) })
      (kept_foldl (fun _ r hq => K.expireRecord b r hq)
        ((p.modBuild b (fun x => { x with dwell := .stopped })).build b).hold
        (K.modBuild b (fun x => { x with dwell := .stopped }) h)))
  split
  · exact K.raise hoff _ (K.abort hoff b _ h1)
  · exact K.completionTest hoff b (kept_foldl (fun _ i hq => K.request hoff b i hq) _ (K.postReturns b h1))

/-! ### Pool and carriers -/

theorem exhausted (b a : Nat) (h : P p) : P (p.exhausted off b a) := by
  unfold Part.exhausted
  exact kept_ite (K.raise hoff _ (K.pool _ h)) h

omit hoff in
theorem takeRecord_granted {b a r : Nat} {q : Part} (e : p.takeRecord off b a = .granted r q) (h : P p) : P q := by
  unfold Part.takeRecord at e
  split at e
  · cases e
  · split at e
    · cases e
    · cases e; exact K.pool _ h

omit K hoff in
theorem takeRecord_spur {b a : Nat} {q : Part} (e : p.takeRecord off b a = .spur q) (h : P p) : P q := by
  unfold Part.takeRecord at e
  split at e
  · cases e; exact h
  · split at e <;> cases e

theorem takeRecord_empty {b a : Nat} {q : Part} (e : p.takeRecord off b a = .empty q) (h : P p) : P q := by
  unfold Part.takeRecord at e
  split at e
  · cases e
  · split at e
    · cases e; exact K.exhausted hoff _ _ h
    · cases e

theorem withdraw (c b i : Nat) (v : Carrier) (x : Option (Counter × NoticeKind)) (h : P p) :
    P (p.withdraw off c b i v x) := by
  unfold Part.withdraw
  dsimp only
  have h1 := K.weigh b 0 (p.carrierWeight (p.carrier c)) (K.move b i .enRoute .uncalled 1 (K.setCarrier c v h))
  apply K.completionTest hoff
  apply K.request hoff
  split
  · exact h1
  · exact K.raise hoff _ (K.count _ h1)

theorem countLap (c b i a : Nat) (h : P p) : P (p.countLap off c b i a) := by
  unfold Part.countLap
  exact kept_ite (kept_ite (K.withdraw hoff _ _ _ _ _ h) (K.setCarrier _ _ h)) h

theorem steerAttempt (c b i : Nat) (h : P p) : P (p.steerAttempt off c b i) := by
  unfold Part.steerAttempt
  split
  · exact h
  · split
    · next e => exact K.count _ (takeRecord_spur e h)
    · next e => exact K.count _ (K.takeRecord_empty hoff e h)
    · next e => exact K.steerGranted _ _ _ _ (K.takeRecord_granted e h)

theorem sightMatch (c b i : Nat) (g : Sight) (h : P p) : P (p.sightMatch off c b i g) := by
  unfold Part.sightMatch
  dsimp only
  have h1 := K.countLight g (p.carrier c).article h
  split
  · exact K.withdraw hoff _ _ _ _ _ h1
  · have h2 : ∀ w : Weighing, P (match w with
      | .pass net =>
        ((p.countLight g (p.carrier c).article).weigh b net
          ((p.countLight g (p.carrier c).article).carrierWeight (p.carrier c))).setCarrier c
          { p.carrier c with net := some net }
      | _ => p.countLight g (p.carrier c).article) := by
      intro w
      split
      · exact K.setCarrier _ _ (K.weigh _ _ _ h1)
      · exact h1
    exact kept_ite (K.steerAttempt hoff _ _ _ (K.countLap hoff _ _ _ _ (h2 _))) (K.countLap hoff _ _ _ _ (h2 _))

theorem sightLine (c b i : Nat) (g : Sight) (h : P p) : P (p.sightLine off c b i g) := by
  unfold Part.sightLine
  split
  · exact K.withdraw hoff _ _ _ _ _ h
  · exact K.countLap hoff _ _ _ _ h
  · exact kept_ite (K.sightMatch hoff _ _ _ _ h) (K.withdraw hoff _ _ _ _ _ h)

theorem steerEnds (c b i r : Nat) (h : P p) : P (p.steerEnds off c b i r) := by
  unfold Part.steerEnds
  dsimp only
  exact kept_ite (K.setCarrier _ _ (K.releaseReservation _ _ h))
    (K.drainTest hoff _ (K.setCarrier _ _ (K.releaseReservation _ _ h)))

theorem lowerCall (r : Nat) (h : P p) : P (p.lowerCall off r) := by
  unfold Part.lowerCall
  dsimp only
  exact kept_ite (K.freeAndOffer hoff r (K.modCall _ _ h)) (K.modCall _ _ h)

theorem claim (c : Nat) (g : Sight) (h : P p) : P (p.claim off c g) := by
  unfold Part.claim
  dsimp only
  split
  · exact h
  · next b i source o _ =>
    have h1 := K.setCarrier c { p.carrier c with state := .enRoute b i, laps := 0 } h
    cases source with
    | uncalled =>
      have h2 := K.weigh b (p.carrierWeight (p.carrier c)) 0 (K.move b i .uncalled .enRoute 1 h1)
      exact kept_ite (K.steerAttempt hoff _ _ _ h2) h2
    | call r =>
      have h2 := fun n => K.weigh b (p.carrierWeight (p.carrier c)) n
        (K.move b i .outstanding .enRoute 1 (K.lowerCall hoff r h1))
      exact kept_ite (K.steerAttempt hoff _ _ _ (h2 _)) (h2 _)

theorem sightSurplus (c : Nat) (g : Sight) (h : P p) : P (p.sightSurplus off c g) := by
  unfold Part.sightSurplus
  dsimp only
  have h1 := K.countLight g (p.carrier c).article h
  split
  · exact h
  · split
    · exact K.count _ (K.setCarrier _ _ h1)
    · exact K.claim hoff _ _ (K.setCarrier _ _ h1)
    · exact K.claim hoff _ _ h1

theorem sightLoose (c : Nat) (g : Sight) (h : P p) : P (p.sightLoose off c g) := by
  unfold Part.sightLoose
  dsimp only
  split
  · exact K.setCarrier _ _ h
  · exact K.sightSurplus hoff _ _ (K.setCarrier _ _ h)
  · exact kept_ite (K.sightSurplus hoff _ _ h) h

theorem sight (g : Sight) (h : P p) : P (p.sight off g) := by
  unfold Part.sight
  dsimp only
  split
  · exact K.count _ h
  · split
    · exact K.sightLine hoff _ _ _ _ h
    · split
      · exact K.sightLine hoff _ _ _ _ (K.steerEnds hoff _ _ _ _ h)
      · exact K.sightLoose hoff _ _ (K.steerEnds hoff _ _ _ _ h)
    · exact K.sightLoose hoff _ _ h
    · exact K.sightLoose hoff _ _ h
    · exact kept_ite (K.setCarrier _ _ h) h
    · exact K.count _ h
    · exact K.count _ h

theorem lineArrived (b i r : Nat) (h : P p) : P (p.lineArrived off b i r) := by
  unfold Part.lineArrived
  dsimp only
  split
  · exact K.completionTest hoff b (K.move _ _ _ _ _ (kept_ite (K.modBuild _ _ h) h))
  · exact kept_ite (K.postReturns b (K.markWanted r h)) h

theorem listLine (c b i r : Nat) (h : P p) : P (p.listLine off c b i r) :=
  K.lineArrived hoff b i r (K.setCarrier _ _ (K.append _ _ (K.setRec _ _ h)))

theorem foreignUnrecorded (c b : Nat) (h : P p) : P (p.foreignUnrecorded off c b) :=
  K.postOrDrop _ (K.raise hoff _ (K.count _ (K.count _ h)))

theorem foreignArrival (c b : Nat) (h : P p) : P (p.foreignArrival off c b) := by
  unfold Part.foreignArrival
  split
  · next e => exact K.foreignRecorded _ _ _ (K.takeRecord_granted e h)
  · next e => exact K.foreignUnrecorded hoff _ _ (takeRecord_spur e h)
  · next e => exact K.foreignUnrecorded hoff _ _ (K.takeRecord_empty hoff e h)

theorem lateArrival (c b i : Nat) (h : P p) : P (p.lateArrival off c b i) := by
  unfold Part.lateArrival
  split
  · next e => exact K.listLine hoff _ _ _ _ (K.takeRecord_granted e h)
  · next e => exact K.foreignArrival hoff _ _ (K.withdraw hoff _ _ _ _ _ (takeRecord_spur e h))
  · next e => exact K.foreignArrival hoff _ _ (K.withdraw hoff _ _ _ _ _ (K.takeRecord_empty hoff e h))

theorem strayFrom (c b i r : Nat) (h : P p) : P (p.strayFrom off c b i r) := by
  unfold Part.strayFrom
  dsimp only
  exact kept_ite (K.withdraw hoff _ _ _ _ _ (K.releaseReservation _ _ h))
    (K.drainTest hoff _ (K.setCarrier _ _ (K.releaseReservation _ _ h)))

theorem arrive (b c : Nat) (h : P p) : P (p.arrive off b c) := by
  unfold Part.arrive
  split
  · exact K.count _ h
  · split
    · exact kept_ite (K.listLine hoff _ _ _ _ (K.modBuild _ _ h))
        (K.foreignArrival hoff _ _ (K.strayFrom hoff _ _ _ _ h))
    · exact kept_ite (K.lateArrival hoff _ _ _ h) (K.foreignArrival hoff _ _ (K.withdraw hoff _ _ _ _ _ h))
    · exact K.count _ h
    · exact K.count _ h
    · exact K.foreignArrival hoff _ _ h

theorem depart (b c : Nat) (h : P p) : P (p.depart off b c) := by
  unfold Part.depart
  split
  · split
    · apply K.drainTest hoff
      apply K.completionTest hoff
      split
      · exact K.modBuild _ _ (K.unlink _ _ (K.setCarrier _ _ h))
      · exact K.unlink _ _ (K.setCarrier _ _ h)
    · exact K.count _ h
  · exact K.count _ h

theorem clearBay (b n : Nat) (h : P p) : P (p.clearBay off b n) := by
  unfold Part.clearBay
  dsimp only
  apply K.bindingEvent hoff
  apply K.modBuild
  apply K.raise hoff
  apply K.modOrder
  apply K.modBuild
  apply K.splice
  apply kept_foldl (fun _ _ hq => K.setCarrier _ _ hq)
  exact kept_ite h (K.count _ h)

/-! ### Answers, expiries, reports, undelivered frames -/

theorem dispose (r : Nat) (x y : Bool) (h : P p) : P (p.dispose off r x y) := by
  unfold Part.dispose
  dsimp only
  split
  · exact K.freeAndOffer hoff r h
  · split
    · exact K.goShort hoff _ _ _ h
    · split
      · exact K.returnToQueue hoff r h
      · split
        · split
          · exact K.goShort hoff _ _ _ h
          · exact K.returnToQueue hoff r h
          · exact K.moveOn hoff r h
        · exact K.returnToQueue hoff r h

theorem currentAnswer (r : Nat) (f : Packet) (h : P p) : P (p.currentAnswer off r f) := by
  unfold Part.currentAnswer
  dsimp only
  have h1 := K.applyStock hoff (p.call r).lane (stockEmpty f) (p.whoOf (p.call r))
    (K.modCall r (fun x => { x with answer := .stopped }) (K.leaveLane (p.call r).lane r h))
  have h2 := kept_ite (c := outcomePlaced f = true) (K.modLane (p.call r).lane (fun x => { x with misses := 0 }) h1) h1
  have h3 := kept_foldl (fun _ id hq => K.creditCarrier r id hq) ((answerIds f).take (p.call r).sentCount) h2
  have h4 := kept_foldl (fun _ id hq => K.nameSurplus (p.call r).article id hq)
    ((answerIds f).drop (p.call r).sentCount) h3
  exact kept_ite (K.dispose hoff _ _ _ h4) (K.miss hoff _ _ (K.dispose hoff _ _ _ h4))

theorem endOrphan (r : Nat) (h : P p) : P (p.endOrphan off r) :=
  K.offer hoff r (K.drainTest hoff _ (K.modBuild _ _ (K.freeCall r h)))

theorem orphanAnswer (r : Nat) (f : Packet) (h : P p) : P (p.orphanAnswer off r f) :=
  K.endOrphan hoff r (K.count _ (kept_foldl (fun _ id hq => K.nameSurplus _ id hq) _ (K.applyStock hoff _ _ _ h)))

theorem staleAnswer (r : Nat) (f : Packet) (h : P p) : P (p.staleAnswer off r f) :=
  K.count _ (kept_foldl (fun _ id hq => K.nameSurplus _ id hq) _ (kept_ite (K.applyStock hoff _ _ _ h) h))

theorem takeAnswer (f : Packet) (h : P p) : P (p.takeAnswer off f) := by
  unfold Part.takeAnswer
  dsimp only
  split
  · split
    · exact K.currentAnswer hoff _ _ h
    · exact K.orphanAnswer hoff _ _ h
    · exact K.staleAnswer hoff _ _ h
  · exact K.staleAnswer hoff _ _ h

theorem answerExpires (r : Nat) (h : P p) : P (p.answerExpires off r) := by
  unfold Part.answerExpires
  split
  · split
    · exact K.sentLost hoff r h
    · exact K.endOrphan hoff r h
    · exact h
  · exact h

theorem persistExpires (r : Nat) (h : P p) : P (p.persistExpires off r) := by
  unfold Part.persistExpires
  split
  · split
    · exact K.goShort hoff _ _ _ h
    · exact K.goShort hoff _ _ _ h
    · exact K.modCall _ _ h
    · exact h
  · exact h

theorem confirmExpires (c : Nat) (h : P p) : P (p.confirmExpires off c) := by
  unfold Part.confirmExpires
  split
  · exact K.steerEnds hoff _ _ _ _ h
  · exact h

theorem dwellExpires (b : Nat) (h : P p) : P (p.dwellExpires off b) := kept_ite (K.chillExpires hoff b h) h

theorem stepExpires (b : Nat) (h : P p) : P (p.stepExpires off b) := kept_ite (K.stopBuild hoff b _ h) h

theorem waitExpires (b : Nat) (h : P p) : P (p.waitExpires off b) :=
  kept_ite (K.nextStep hoff b (K.modBuild _ _ h)) h

theorem stepRefusedAt (b : Nat) (h : P p) : P (p.stepRefusedAt off b) :=
  kept_ite (K.nextStep hoff b h) (K.stopBuild hoff b _ h)

theorem clearedAt (b n : Nat) (h : P p) : P (p.clearedAt off b n) := kept_ite (K.clearBay hoff b n h) (K.count _ h)

theorem callReturned (f : Packet) (h : P p) : P (p.callReturned off f) := by
  unfold Part.callReturned
  exact kept_ite (K.sentLost hoff _ h) h

theorem steerReturned (f : Packet) (h : P p) : P (p.steerReturned off f) := by
  unfold Part.steerReturned
  split
  · exact kept_ite (K.steerEnds hoff _ _ _ _ h) h
  · exact h

theorem bayCommandReturned (f : Packet) (h : P p) : P (p.bayCommandReturned off f) := by
  unfold Part.bayCommandReturned
  split
  · exact h
  · split
    · exact kept_ite (K.stopBuild hoff _ _ (K.stopStepTimer _ h)) h
    · exact kept_ite (K.repost _ _ h) h
    · exact kept_ite (K.repost _ _ h) h
    · exact h

theorem handBack (k : SentKind) (f : Packet) (h : P p) : P (p.handBack off k f) := by
  cases k
  · exact K.callReturned hoff f h
  · exact K.steerReturned hoff f h
  · exact K.bayCommandReturned hoff f h
  · exact h
  · exact h

end Raising

/-! ### Expiries and reports that raise nothing -/

theorem retryExpires (r : Nat) (h : P p) : P (p.retryExpires r) := kept_ite (K.undefer r h) h

theorem pacingExpires (d : Nat) (h : P p) : P (p.pacingExpires d) := kept_ite (K.postAttempt d h) h

theorem onBay (f : Packet) {act : Nat → Part → Part} (hact : ∀ b {q : Part}, P q → P (act b q)) (h : P p) :
    P (p.onBay f act) := by
  unfold Part.onBay
  split
  · exact hact _ h
  · exact K.count _ h

theorem stepReport (b : Nat) (f : Packet) {act : Part → Part} (hact : ∀ {q : Part}, P q → P (act q)) (h : P p) :
    P (p.stepReport b f act) := kept_ite (hact (K.stopStepTimer b h)) (K.count _ h)

/-! ### The LANE_OFFLINE routing action itself -/

theorem takeLaneOutUpTo (n l : Nat) (h : P p) : P (Machine.takeLaneOutUpTo n l p) := by
  induction n generalizing l p with
  | zero => exact K.modLane _ _ h
  | succ n ih => exact K.goOffline (fun l _ hq => ih l hq) l h

theorem takeLaneOut (l : Nat) {q : Part} (h : P q) : P (Machine.takeLaneOut l q) := K.takeLaneOutUpTo _ l h

end Kept

end Sys2Proof.Machine
end

