-- ==== Sys2Proof/Laws/Ports.lean ====
section
/-! SUPPORT. What the Ring Port's shared operations do: check words, posting, the verdict on a frame that reaches the part,
and an Admin Request with its reply. -/

namespace Sys2Proof

/-- A sealed frame is sound (R2). -/
theorem Packet.sound_seal (k : Byte) (p : Packet) : (p.seal k).sound = true := by
  simp [Packet.seal, Frame.sound]

@[simp] theorem Packet.kind_seal (k : Byte) (p : Packet) : (p.seal k).kind = k := rfl
@[simp] theorem Packet.packet_seal (k : Byte) (p : Packet) : (p.seal k).packet = p := rfl

/-- A sound frame is the sealed frame of its kind and contents (R2). -/
theorem Frame.eq_seal (f : Frame) (h : f.sound = true) : f = f.packet.seal f.kind := by
  have h' : f.packet.sum f.kind + f.check = 0 := by simpa [Frame.sound] using h
  have : f.check = - f.packet.sum f.kind := by
    have := congrArg (fun x => - f.packet.sum f.kind + x) h'
    simpa [← BitVec.add_assoc, BitVec.add_left_neg] using this
  cases f with
  | mk k p c => simp only [Packet.seal] at *; rw [this]

/-- The code of a frame whose byte 6 already is that code stays. -/
theorem Packet.withCode_of_byte (p : Packet) (c : Byte) (hw : p.wf = true) (h : p.byte 6 = c) : p.withCode c = p := by
  have hl : p.payload.length = 24 := by simpa [Packet.wf] using hw
  cases p with
  | mk m d s l =>
    cases l with
    | nil => simp at hl
    | cons a l => simp [Packet.byte] at h; simp [Packet.withCode, h]

theorem Packet.withCode_of_wfReport {p : Packet} {c : ReportCode} (h : p.wfReport c = true) :
    p.withCode c.code = p := by
  simp [Packet.wfReport] at h
  exact p.withCode_of_byte _ h.1 h.2

theorem Packet.withCode_of_wfRequest {p : Packet} {c : RequestCode} (h : p.wfRequest c = true) :
    p.withCode c.code = p := by
  simp [Packet.wfRequest] at h
  exact p.withCode_of_byte _ h.1 h.2

/-- Every kind code reads back as its kind (R1). -/
@[simp] theorem Kind.ofCode_code (k : Kind) : Kind.ofCode k.code = some k := by cases k <;> decide

/-- Every request code reads back as its request (Table 1-3). -/
@[simp] theorem RequestCode.ofCode_code (c : RequestCode) : RequestCode.ofCode c.code = some c := by
  cases c <;> decide

namespace Machine

/-! ### Posting (R12) -/

/-- A frame other than a Steer is accepted by a normal queue with room: it joins the tail, and nothing else changes. -/
theorem Part.post_room {x : Post} {p : Part} (hk : x.kind ≠ .steer) (h : p.ring.normal.length < 48) :
    p.post x = some (p.posted x) := by
  simp [Part.post, hk, Config.normalSize, h, Part.posted, Part.modNormal]

/-- A frame other than a Steer is refused by a full normal queue. -/
theorem Part.post_full {x : Post} {p : Part} (hk : x.kind ≠ .steer) (h : ¬ p.ring.normal.length < 48) :
    p.post x = none := by
  simp [Part.post, hk, Config.normalSize, h]

/-- What a post does when it is accepted. -/
theorem Part.post_some {x : Post} {p p' : Part} (h : p.post x = some p') :
    (x.kind = .steer ∧ p.ring.urgent.length < 16 ∧
      p' = { p with ring := { p.ring with urgent := p.ring.urgent ++ [x] } }) ∨
    (x.kind ≠ .steer ∧ p.ring.normal.length < 48 ∧
      p' = { p with ring := { p.ring with normal := p.ring.normal ++ [x] } }) := by
  unfold Part.post at h
  split at h
  · next hk => split at h <;> simp_all [Config.urgentSize]
  · next hk => split at h <;> simp_all [Config.normalSize]

/-! ### The verdict (R3, R6 to R8, R18) -/

/-- Nothing is taken, read or stripped by an inert part (R3, R23). -/
theorem Part.deliver_inert {kind : Kind} {pkt : Packet} {act : Part → Part} {p : Part} (h : p.inert = true) :
    p.deliver kind pkt act = p.passOn kind pkt := by
  simp [Part.deliver, Part.verdict, h, Part.passOn]

/-- The verdict on a frame of a kind the part does not send. -/
theorem Part.verdict_received {kind : Kind} {pkt : Packet} {p : Part} (hl : p.listening = true)
    (hk : kind.sent? = none) : p.verdict kind pkt = p.kindVerdict kind pkt := by
  simp [Part.listening] at hl
  simp [Part.verdict, hl, hk]

theorem Part.addressed_of_receives {pkt : Packet} {p : Part} (h : p.receives pkt) : p.addressed pkt = true := by
  obtain ⟨_, h2, h3⟩ := h
  simp [Part.addressed, h2, h3]

/-- A Bay Report taken in RUN or PAUSED is handed to its block (R7). -/
theorem Part.deliver_report {pkt : Packet} {act : Part → Part} {p : Part} (h : p.receives pkt) (hm : p.mode ≠ .config)
    (hc : reportChecks pkt = true) : p.deliver .bayReport pkt act = act (p.takeOn .bayReport pkt) := by
  have hv : p.verdict .bayReport pkt = .take := by
    rw [Part.verdict_received h.1 rfl]
    simp [Part.kindVerdict, Part.unicastVerdict, Part.addressed_of_receives h, hc, hm]
  simp [Part.deliver, hv, Part.takeOn]

/-- An Answer that passes its checks in RUN or PAUSED is handed to the Call Unit (R7). -/
theorem Part.deliver_answer {pkt : Packet} {act : Part → Part} {p : Part} (h : p.receives pkt) (hm : p.mode ≠ .config)
    (hc : answerChecks pkt = true) : p.deliver .answer pkt act = act (p.takeOn .answer pkt) := by
  have hv : p.verdict .answer pkt = .take := by
    rw [Part.verdict_received h.1 rfl]
    simp [Part.kindVerdict, Part.unicastVerdict, Part.addressed_of_receives h, hc, hm]
  simp [Part.deliver, hv, Part.takeOn]

/-- A broadcast in a mode in which it is handed on is read (R6). -/
theorem Part.deliver_tick {pkt : Packet} {act : Part → Part} {p : Part} (h : p.hears pkt) :
    p.deliver .tick pkt act = act (p.passOn .tick pkt) := by
  have hv : p.verdict .tick pkt = .read := by
    rw [Part.verdict_received h.1 rfl]
    cases hm : p.mode <;> simp [Part.kindVerdict, Part.broadcastVerdict, h.2, hm]
  simp [Part.deliver, hv, Part.passOn]

theorem Part.deliver_pitch {pkt : Packet} {act : Part → Part} {p : Part} (h : p.hears pkt) (hm : p.mode = .run) :
    p.deliver .pitch pkt act = act (p.passOn .pitch pkt) := by
  have hv : p.verdict .pitch pkt = .read := by
    rw [Part.verdict_received h.1 rfl]
    simp [Part.kindVerdict, Part.broadcastVerdict, h.2, hm]
  simp [Part.deliver, hv, Part.passOn]

theorem Part.deliver_sighting {pkt : Packet} {act : Part → Part} {p : Part} (h : p.hears pkt) (hm : p.mode ≠ .config) :
    p.deliver .sighting pkt act = act (p.passOn .sighting pkt) := by
  have hv : p.verdict .sighting pkt = .read := by
    rw [Part.verdict_received h.1 rfl]
    cases hm' : p.mode <;> simp_all [Part.kindVerdict, Part.broadcastVerdict, h.2]
  simp [Part.deliver, hv, Part.passOn]

/-- An Admin Request that finds a free normal entry is handed to the Admin Unit (R18). -/
theorem Part.deliver_request {pkt : Packet} {act : Part → Part} {p : Part} (h : p.receives pkt)
    (hq : p.ring.normal.length < 48) : p.deliver .adminRequest pkt act = act (p.takeOn .adminRequest pkt) := by
  have hv : p.verdict .adminRequest pkt = .take := by
    rw [Part.verdict_received h.1 rfl]
    simp [Part.kindVerdict, Part.addressed_of_receives h, Part.normalFree, Config.normalSize, hq]
  simp [Part.deliver, hv, Part.takeOn]

/-- An own frame come round undelivered is stripped, counted and handed back (R8). -/
theorem Part.ownKind_returned {kind : SentKind} {pkt : Packet} {p : Part} (h : p.ownReturned pkt) :
    p.ownKind kind pkt = (p.stripCounted kind).handBack takeLaneOut kind pkt := by
  obtain ⟨_, h1, h2, h3, h4⟩ := h
  have hs : kind.kind.sent? = some kind := by cases kind <;> rfl
  have hv : p.verdict kind.kind pkt = .strip kind true := by
    simp [Part.listening] at h1
    simp [Part.verdict, h1, h2, hs, h4, Config.broadcast]
    exact decide_eq_true h3
  simp [Part.ownKind, Part.deliver, hv, Part.stripCounted]

/-! ### Admin Requests (R18, R19) -/

/-- A request of its row, taken and past the manager check: its body works on the part with the reply's entry taken, and
the reply is filled in. -/
theorem Part.adminRequest_taken {code : RequestCode} {pkt : Packet} {body : Packet → Part → Reply} {p : Part}
    (h : p.receivesRequest code pkt) :
    p.adminRequest code pkt body =
      (fun r : Reply => r.part.modNormal (fun q => q.set p.ring.normal.length (replyTo pkt r.status r.data)))
        (body pkt ((p.takeOn .adminRequest pkt).modNormal (fun q => q ++ [replyTo pkt .ok []]))) := by
  obtain ⟨hw, hr, hq, ha⟩ := h
  have hadm : ((p.takeOn .adminRequest pkt).modNormal (fun q => q ++ [replyTo pkt .ok []])).admits pkt.src.toNat = true := ha
  unfold Part.adminRequest
  rw [Packet.withCode_of_wfRequest hw]
  rw [Part.deliver_request hr hq]
  simp only [Part.takeRequest, hadm, if_true]
  rfl

/-- A request whose body leaves the insert queue alone: its part, with the reply at the queue's tail. -/
theorem Part.adminRequest_eq {code : RequestCode} {pkt : Packet} {body : Packet → Part → Reply} {p q : Part}
    {st : Status} {data : List Byte} (h : p.receivesRequest code pkt)
    (hb : body pkt ((p.takeOn .adminRequest pkt).modNormal (fun q => q ++ [replyTo pkt .ok []])) =
      ⟨st, data, q.modNormal (fun _ => p.ring.normal ++ [replyTo pkt .ok []])⟩) :
    p.adminRequest code pkt body = q.modNormal (fun _ => p.ring.normal ++ [replyTo pkt st data]) := by
  rw [Part.adminRequest_taken h, hb]
  simp [Part.modNormal]

end Machine

end Sys2Proof
end

