-- ==== Sys2Proof/Laws/Events.lean ====
section
/-! SUPPORT. For each operation that several commands share, the relation of Safety.lean that says everything it can do: a
proof about a command cites these and does not unfold the operation. -/

namespace Sys2Proof.Machine

variable {p : Part}

/-! ### Parts that read the same -/

theorem Part.Same.refl (p : Part) : p.Same p := by constructor <;> intros <;> rfl

theorem Part.Same.of_eq {p q : Part} (h : p = q) : p.Same q := h ▸ Part.Same.refl p

theorem Part.Same.modBuild {p q : Part} (h : p.Same q) (b : Nat) (f : Build → Build) :
    (p.modBuild b f).Same (q.modBuild b f) := by
  obtain ⟨h1, h2, h3, h4, h5, h6, h7, h8, h9, h10, h11, h12, h13, h14, h15, h16, h17⟩ := h
  refine ⟨h1, h2, h3, h4, h5, h6, h7, fun k => ?_, h9, h10, h11, h12, h13, h14, h15, h16, h17⟩
  simp only [Part.build_modBuild, h8]

theorem setNoticeQueue_again (d : Nat) (v w : NoticeQueue) (p : Part) :
    ((p.setNoticeQueue d v).setNoticeQueue d w).Same (p.setNoticeQueue d w) := by
  constructor <;> intros <;> first | rfl | (simp [Part.noticeQueue_setNoticeQueue]; try split <;> rfl)

theorem modUseCount_same (s : Nat) (f : Nat → Nat) (h : f (p.useCount s) = p.useCount s) :
    (p.modUseCount s f).Same p := by
  constructor <;> intros <;> first | rfl | skip
  rw [Part.useCount_modUseCount]
  split
  · subst s; exact h
  · rfl

theorem dropStyle_same (s : Nat) (p : Part) :
    (p.dropStyle s).Same (p.modUseCount s (fun n => if s = 0 then n else n - 1)) := by
  unfold Part.dropStyle
  split
  · subst s
    have e := modUseCount_same (p := p) 0 (fun n => n) rfl
    constructor <;> intros <;> first | rfl | exact (e.useCount _).symm
  · exact Part.Same.refl _

theorem Part.Same.modOrder {p q : Part} (h : p.Same q) (n : Nat) (f : Order → Order) :
    (p.modOrder n f).Same (q.modOrder n f) := by
  have e : p.order? n = q.order? n := by simp only [Part.order?, h.book]
  unfold Part.modOrder
  rw [e]
  split
  · exact h
  · obtain ⟨h1, h2, h3, h4, h5, h6, h7, h8, h9, h10, h11, h12, h13, h14, h15, h16, h17⟩ := h
    exact ⟨h1, h2, h3, h4, h5, h6, by simp only [h7], h8, h9, h10, h11, h12, h13, h14, h15, h16, h17⟩

theorem Part.Same.modLine {p q : Part} (h : p.Same q) (b i : Nat) (f : Line → Line) :
    (p.modLine b i f).Same (q.modLine b i f) := by
  unfold Part.modLine
  rw [h.build]
  exact h.modOrder _ _

/-- A change that leaves a build as it is changes nothing that is read. -/
theorem modBuild_same (b : Nat) {f : Build → Build} {p : Part} (h : f (p.build b) = p.build b) : p.Same (p.modBuild b f) := by
  constructor <;> intros <;> first | rfl | skip
  rw [Part.build_modBuild]
  split
  · subst b
    exact h.symm
  · rfl

/-- A change of a build matters by what it makes of that build alone. -/
theorem modBuild_congr (b : Nat) {f g : Build → Build} (p : Part) (h : f (p.build b) = g (p.build b)) :
    p.modBuild b f = p.modBuild b g := by
  simp only [Part.modBuild, h]

/-! ### Notices (R191, R195) -/

/-- A post attempt does what R195 says of one. -/
theorem postAttempt_triesToPost (d : Nat) (p : Part) : p.triesToPost d (p.postAttempt d) := by
  unfold Part.triesToPost
  intro q node pacing
  refine ⟨fun h => ?_, ?_⟩
  · simp only [Part.postAttempt]
    rw [show (p.noticeQueue d).queue = [] from h]
    simp only [Part.attempts]
    apply Part.Same.of_eq
    rw [show q = { q with queue := [] } by rw [← h]]
  · intro e rest h sent
    have hq : q = { q with queue := e :: rest } := by rw [← h]
    simp only [Part.postAttempt]
    rw [show (p.noticeQueue d).queue = e :: rest from h]
    refine ⟨fun h1 => ?_, fun h1 h2 => ?_, fun h1 h2 h3 => ?_, fun h1 h2 h3 h4 => ?_, fun h1 h2 h3 _ => ?_⟩
    · simp only [Part.attempts]
      rw [if_pos h1]
      exact .of_eq (by rw [hq])
    · simp only [Part.attempts]
      rw [if_neg h1, Part.post_full (by simp) (by omega)]
      exact .of_eq (by rw [hq])
    · simp only [Part.attempts]
      rw [if_neg h1, Part.post_room (by simp) (by omega)]
      dsimp only
      rw [if_pos h3]
      exact Part.Same.refl _
    · subst h4
      simp only [Part.attempts]
      rw [if_neg h1, Part.post_room (by simp) (by omega)]
      dsimp only
      rw [if_neg (by change ¬ 0 < pacing; omega)]
      simp only [Part.noticeQueue_setNoticeQueue, if_true]
      exact setNoticeQueue_again d _ _ sent
    · simp only [Part.attempts]
      rw [if_neg h1, Part.post_room (by simp) (by omega)]
      dsimp only
      rw [if_neg (by change ¬ 0 < pacing; omega)]
      simp [sent, Part.posted]
      rfl

/-- Posting and queueing leave the builds alone. -/
theorem builds_attempts (d : Nat) (l : List NoticeEntry) : ∀ p : Part, (p.attempts d l).builds = p.builds := by
  induction l with
  | nil => intro p; rfl
  | cons e rest ih =>
    intro p
    simp only [Part.attempts]
    split
    · rfl
    · split
      · rfl
      · rename_i q hq
        have hb : q.builds = p.builds := by
          by_cases h : p.ring.normal.length < 48
          · rw [Part.post_room (by simp) h] at hq
            cases hq
            rfl
          · rw [Part.post_full (by simp) h] at hq
            cases hq
        split
        · exact hb
        · rw [ih]
          exact hb

theorem builds_notify (n : Notice) (p : Part) : (p.notify n).builds = p.builds := by
  unfold Part.notify
  dsimp only
  split
  · rfl
  · unfold Part.queueNotice
    dsimp only
    split
    · split
      · exact builds_attempts _ _ _
      · rfl
    · rfl

/-- A notice that names no lane leaves a build as it is but for its hold flag. -/
theorem build_raise (off : LaneAction) (n : Notice) (h : n.lane = 0) (p : Part) (b : Nat) :
    ∃ f, (p.raise off n).build b = { p.build b with holdFlag := f } := by
  have hn : (p.notify n).build b = p.build b := by simp only [Part.build, builds_notify]
  unfold Part.raise Part.routeAction
  split
  · exact ⟨_, hn⟩
  · split
    · exact ⟨_, hn⟩
    · rw [Part.build_modBuild]
      split
      · rename_i e
        rw [← e, hn]
        exact ⟨_, rfl⟩
      · exact ⟨_, hn⟩
  · rw [if_neg (by simp [Notice.namedLane, h])]
    exact ⟨_, hn⟩

theorem pointer_raise (off : LaneAction) (n : Notice) (h : n.lane = 0) (p : Part) (b : Nat) :
    ((p.raise off n).build b).pointer = (p.build b).pointer := by
  obtain ⟨f, e⟩ := build_raise off n h p b
  rw [e]

/-- Posting leaves the Hall Tables alone. -/
theorem tables_attempts (d : Nat) (l : List NoticeEntry) : ∀ p : Part, (p.attempts d l).tables = p.tables := by
  induction l with
  | nil => intro p; rfl
  | cons e rest ih =>
    intro p
    simp only [Part.attempts]
    split
    · rfl
    · split
      · rfl
      · rename_i q hq
        have hb : q.tables = p.tables := by
          by_cases h : p.ring.normal.length < 48
          · rw [Part.post_room (by simp) h] at hq
            cases hq
            rfl
          · rw [Part.post_full (by simp) h] at hq
            cases hq
        split
        · exact hb
        · rw [ih]
          exact hb

/-- The Hall Tables are among what the blocks' operations leave alone. -/
theorem kept_tables (t : Tables) : Kept (fun p => p.tables = t) where
  count _ _ h := h
  modBuild _ _ _ h := h
  modCall _ _ _ h := h
  modLane _ _ _ h := h
  setRec _ _ _ h := h
  setCarrier _ _ _ h := h
  modOrder n f p h := by
    unfold Part.modOrder
    split <;> exact h
  modUseCount _ _ _ h := h
  post x _ _ hx h := by
    rcases Part.post_some hx with ⟨_, _, e⟩ | ⟨_, _, e⟩ <;> subst e <;> exact h
  pool _ _ h := h
  cal _ _ h := h
  callSeq _ _ h := h
  carriers _ _ h := h
  queueNotice d e p h := by
    unfold Part.queueNotice
    dsimp only
    split
    · split
      · rw [Part.postAttempt, tables_attempts]; exact h
      · exact h
    · exact h
  postAttempt d p h := by rw [Part.postAttempt, tables_attempts]; exact h

/-- Raising a notice, its routing action included, leaves the Hall Tables alone. -/
theorem tables_raise (n : Notice) (p : Part) : (p.raise takeLaneOut n).tables = p.tables :=
  (kept_tables p.tables).raise (fun l _ h => (kept_tables p.tables).takeLaneOut l h) n rfl

/-! ### Shortages (R77 to R79) -/

/-- A shortage at a place of a line's units. -/
theorem short_goesShort (off : LaneAction) (b i k : Nat) (source : Place) (cause : ShortCause) (lane : Nat) (p : Part)
    (hk : 0 < k) :
    p.goesShort off b i (fun l => { l.leave source k with short := l.short + k, cause := some cause })
      (if cause.namesLane then lane else 0) (p.short off b i k source cause lane) := by
  intro l hg hl
  refine ⟨_, Part.Same.refl _, ?_⟩
  simp only [Part.short, hl, hg]
  rw [if_neg (by simp; omega)]
  simp [Part.modLine]

/-- A record whose count goes short, for a cause that names a lane. -/
theorem goShort_endsShort (off : LaneAction) (r : Nat) (cause : ShortCause) (lane : Nat) (p : Part)
    (hc : cause.namesLane = true) : p.endsShort off r cause lane (p.goShort off r cause lane) := by
  unfold Part.endsShort
  intro c hpos
  refine ⟨_, ?_, rfl⟩
  have e := short_goesShort off c.bay c.line c.count .outstanding cause lane
    (((p.leaveLane c.lane r).modCall r (fun x => { x with count := 0 })).weigh c.bay 0 (c.count * c.nominal)) hpos
  rw [if_pos hc] at e
  exact e

/-! ### Call records and lanes (R119, R124, R134 to R138) -/

theorem freeRecord_none : p.freeRecord = none ↔ ∀ r, r < 512 → (p.call r).state ≠ .free := by
  simp [Part.freeRecord, Config.callRecords]

theorem freeRecord_some {r : Nat} (h : r < 512) (free : (p.call r).state = .free)
    (first : ∀ x, x < r → (p.call x).state ≠ .free) : p.freeRecord = some r := by
  cases e : p.freeRecord with
  | none => exact absurd free (freeRecord_none.mp e r h)
  | some x =>
    simp only [Part.freeRecord, Config.callRecords] at e
    obtain ⟨hx, i, hi, hv, before⟩ := List.find?_eq_some_iff_getElem.mp e
    simp only [List.getElem_range] at hv
    subst hv
    rcases Nat.lt_trichotomy i r with hl | rfl | hl
    · exact absurd (by simpa using hx) (first i hl)
    · rfl
    · exact absurd free (by simpa using before r hl)

/-- Creating a call takes the lowest FREE record, or counts that there is none. -/
theorem takeCall_callTaken (b i j : Nat) (mode : LineMode) (pos art : Nat) (p : Part) :
    p.callTaken b i j mode pos art (p.takeCall b i j mode pos art) := by
  unfold Part.callTaken
  intro a waits
  refine ⟨fun h => ?_, fun r h0 h1 h2 => ?_⟩
  · unfold Part.takeCall
    rw [freeRecord_none.mpr h]
  · unfold Part.takeCall
    rw [freeRecord_some h0 h1 h2]
    dsimp only
    exact .of_eq rfl

/-- A returning record joins the head of its queue and meets its lane. -/
theorem returnToQueue_goesBack (r : Nat) (p : Part) : p.goesBack r (p.returnToQueue takeLaneOut r) := by
  unfold Part.goesBack Part.returnToQueue
  intro c x
  let back : Call → Call := fun y =>
    { y with state := .queued, generation := (y.generation + 1) % 16, sentCount := 0, answer := .stopped }
  let u := ((p.leaveLane c.lane r).modCall r back).joinHead c.lane r
  have hc : u.call r = back c := by
    simp [u, Part.joinHead, Part.leaveLane, c]
  have hl : u.lane (back c).lane =
      { x with queue := r :: x.queue.filter (· ≠ r), busy := if x.busy = some r then none else x.busy } := by
    change u.lane c.lane = _
    simp [u, Part.joinHead, Part.leaveLane, x]
  have met : (((p.leaveLane c.lane r).modCall r back).joinHead c.lane r).meetLane takeLaneOut r =
      u.meetLane takeLaneOut r := rfl
  refine ⟨u, ?_, ?_⟩
  · constructor <;> intros <;> first | rfl | skip
    simp only [u, Part.joinHead, Part.leaveLane, Part.lane_modLane, Part.lane_modCall]
    split <;> rfl
  · dsimp only
    rw [met]
    simp only [Part.meetLane, hc, hl]
    refine ⟨fun h => ?_, fun h h1 => ?_, fun h h1 h3 => ?_, fun h h1 h3 => ?_⟩
    · rw [if_pos h]
      exact goShort_endsShort _ _ _ _ _ rfl
    · rw [if_neg (by simp [back, h]), if_pos (by simp [h1])]
      refine ⟨fun h2 => ?_, fun h2 => ?_, fun h2 => ?_⟩ <;> simp only [back, h2]
      exact goShort_endsShort _ _ _ _ _ rfl
    · rw [if_neg (by simp [back, h]), if_neg (by simp [h1]), if_pos h3]
      refine ⟨fun h2 => ?_, fun h2 => ?_, fun h2 => ?_⟩ <;> simp only [back, h2]
      · exact goShort_endsShort _ _ _ _ _ rfl
      · exact .of_eq rfl
    · rw [if_neg (by simp [back, h]), if_neg (by simp [h1]), if_neg (by simp [h3])]

/-- A lane takes a miss. -/
theorem miss_takesMiss (l bay order article : Nat) (kind : NoticeKind) (lane : Nat) (p : Part) :
    p.takesMiss l bay order article (p.miss takeLaneOut l ⟨kind, bay, order, article, lane⟩) := by
  unfold Part.takesMiss Part.miss
  intro x
  refine ⟨fun h => ?_, fun h1 h2 => ?_⟩
  · dsimp only
    rw [if_neg]
    · exact Part.Same.refl _
    · rintro ⟨h1, h2⟩
      rcases h with h | h
      · change min 3 (x.misses + 1) = 3 at h1
        omega
      · change x.online = true at h2
        rw [h] at h2
        cases h2
  · have e : min 3 (x.misses + 1) = 3 := by omega
    dsimp only
    rw [if_pos ⟨e, h2⟩]
    refine ⟨_, ?_, rfl⟩
    constructor <;> intros <;> first | rfl | skip
    simp only [Part.lane_modLane]
    split <;> simp [x, *]

/-- A SENT call that is lost. -/
theorem sentLost_lostCall (r : Nat) (p : Part) : p.lostCall r (p.sentLost takeLaneOut r) :=
  ⟨_, returnToQueue_goesBack r p, miss_takesMiss _ _ _ _ _ _ _⟩

/-! ### Line carriers (R162 to R164) -/

/-- A line carrier withdrawn for a cause that is counted and noticed. -/
theorem withdraw_withdrawn (c b i : Nat) (next : Carrier) (cause : Counter) (kind : NoticeKind) (p : Part) :
    p.withdrawn c b i next cause kind (p.withdraw takeLaneOut c b i next (some (cause, kind))) := by
  unfold Part.withdrawn
  intro x w
  refine ⟨(((p.setCarrier c next).move b i .enRoute .uncalled 1).weigh b 0 (p.carrierWeight (p.carrier c))).count cause,
    ?_, ?_⟩
  · have hw : p.carrierWeight (p.carrier c) = w := by
      simp only [Part.carrierWeight, w, x]
      cases (p.carrier c).net <;> rfl
    rw [hw]
    exact .of_eq rfl
  · simp only [Part.withdraw]
    have e : ((((p.setCarrier c next).move b i .enRoute .uncalled 1).weigh b 0
        (p.carrierWeight (p.carrier c))).build b).order = (p.build b).order := by
      simp [Part.weigh, Part.move, Part.modLine]
    simp only [e]
    rfl

/-- A line carrier's lap at an arch. -/
theorem countLap_lapCounted (c b i arch : Nat) (p : Part) :
    p.lapCounted c b i arch (p.countLap takeLaneOut c b i arch) := by
  unfold Part.lapCounted
  intro x
  refine ⟨fun h => ?_, fun h1 h2 h3 => ?_, fun h1 h2 h3 => ?_⟩
  · simp only [Part.countLap]
    rw [if_neg]
    rintro ⟨h1, h2⟩
    rcases h with h | h <;> contradiction
  · simp only [Part.countLap]
    rw [if_pos ⟨h1, h2⟩, if_neg (by change ¬ p.const 7 ≤ x.laps; omega)]
    exact Part.Same.refl _
  · simp only [Part.countLap]
    rw [if_pos ⟨h1, h2⟩, if_pos (by exact h3)]
    exact withdraw_withdrawn _ _ _ _ _ _ _

/-- A steer that ends without an arrival. -/
theorem steerEnds_steerEnded (c b i r : Nat) (p : Part) : p.steerEnded c b i r (p.steerEnds takeLaneOut c b i r) := by
  unfold Part.steerEnded
  intro released
  have hb : ((p.releaseReservation b r).build b).state = (p.build b).state := by
    simp [Part.releaseReservation, Part.freeHold]
    rfl
  refine ⟨fun h => ?_, fun h => ?_⟩
  · simp only [Part.steerEnds]
    rw [if_pos (by rw [hb]; exact h)]
    exact .of_eq rfl
  · simp only [Part.steerEnds]
    rw [if_neg (by rw [hb, h]; simp)]
    exact ⟨_, .of_eq rfl, rfl⟩

/-! ### Arrivals (R87, R88, R105, R106, R111, R162) -/

/-- A line carrier withdrawn because it cannot be held. -/
theorem withdraw_strays (c b i : Nat) (p : Part) :
    p.strays c b i (p.withdraw takeLaneOut c b i (p.carrier c).toSurplus none) := by
  unfold Part.strays
  intro x w
  refine ⟨_, ?_, rfl⟩
  have hw : p.carrierWeight (p.carrier c) = w := by
    simp only [Part.carrierWeight, w, x]
    cases (p.carrier c).net <;> rfl
  rw [hw]
  exact .of_eq rfl

/-- A refusal with EMPTY. -/
theorem exhausted_runsDry (b article : Nat) (p : Part) : p.runsDry b article (p.exhausted takeLaneOut b article) := by
  refine ⟨fun h => ?_, fun h => ?_⟩ <;> simp only [Part.exhausted, h]
  · rfl
  · rfl

/-- A foreign arrival that finds no record. -/
theorem foreignUnrecorded_unrecorded (c b : Nat) (p : Part) :
    p.unrecorded c b (p.foreignUnrecorded takeLaneOut c b) := by
  unfold Part.unrecorded
  intro noticed
  have node : (noticed.bayDir b).bayNode = (p.bayDir b).bayNode := by
    have e : noticed.tables = p.tables := tables_raise _ _
    simp only [Part.bayDir, e]
  have e : p.foreignUnrecorded takeLaneOut c b =
    noticed.postOrDrop ⟨.bayCommand, (p.bayDir b).bayNode, returnPayload [c]⟩ := by
    rw [← node]
    rfl
  rw [e, Part.postOrDrop]
  refine ⟨fun h => ?_, fun h => ?_⟩
  · rw [Part.post_room (by simp) h]
    rfl
  · rw [Part.post_full (by simp) (by omega)]
    rfl

/-- A carrier of no build arrives in a bay. -/
theorem foreignArrival_meetsForeign (c b : Nat) (p : Part) :
    p.meetsForeign c b (p.foreignArrival takeLaneOut c b) := by
  unfold Part.meetsForeign
  intro x y spur prior
  have spurFull : p.spurFull b = decide (spur ≤ y.hold.length + y.reserved) := rfl
  refine ⟨fun r rest h1 h2 => ?_, fun h => ?_, fun h1 h2 => ?_⟩ <;>
    simp only [Part.foreignArrival, Part.takeRecord, spurFull]
  · rw [if_neg (by simpa using h1), h2]
    refine ⟨_, ?_, rfl⟩
    constructor <;> intros <;> first | rfl | skip
    simp only [Part.append, Part.build_setCarrier, Part.build_count, Part.build_modBuild, Part.build_setRec]
    split <;> simp
  · rw [if_pos (by simpa using h)]
    exact foreignUnrecorded_unrecorded _ _ _
  · rw [if_neg (by simpa using h1), h2]
    exact ⟨_, exhausted_runsDry _ _ _, foreignUnrecorded_unrecorded _ _ _⟩

/-- A line carrier comes to rest on a record. -/
theorem listLine_listsLine (c b i r : Nat) (p : Part) : p.listsLine c b i r (p.listLine takeLaneOut c b i r) := by
  unfold Part.listsLine
  intro x chilled filled listed
  have he : p.lineRecord c i = filled := by
    simp only [Part.lineRecord, Part.carrierWeight, filled, x]
    cases (p.carrier c).net <;> rfl
  let u := listed.setRec r filled
  have e : p.listLine takeLaneOut c b i r = u.lineArrived takeLaneOut b i r := by
    simp only [Part.listLine, he]
    rfl
  have state : (u.build b).state = (p.build b).state := by simp [u, listed]
  have record : u.holdRec r = filled := by simp [u]
  refine ⟨fun h => ?_, fun h => ?_⟩ <;> rw [e, Part.lineArrived, state, h]
  · rw [if_pos rfl, record]
    refine ⟨_, ?_, rfl⟩
    unfold Part.move
    refine Part.Same.modLine ?_ _ _ _
    change Part.Same (if chilled then _ else u) (u.modBuild b _)
    cases chilled
    · rw [if_neg (by simp)]
      exact modBuild_same _ rfl
    · rw [if_pos rfl]
      apply Part.Same.of_eq
      apply modBuild_congr
      cases (u.build b).dwell <;> simp [Timer.live]
      rfl
  · rw [if_neg (by simp), if_pos rfl]
    refine ⟨_, ?_, rfl⟩
    simp only [Part.markWanted, record]
    rw [if_pos rfl]
    constructor <;> intros <;> first | rfl | skip
    simp only [u, Part.holdRec_setRec]
    split <;> rfl

/-! ### Aborts (R68, R91, R93, R94) -/

/-- A chill failure's abort of a GATHERING build: the order FAILED, the build DRAINING, the work handed over. -/
theorem abort_chillFailure (b : Nat) (p : Part) (h : (p.build b).state = .gathering) :
    p.abort takeLaneOut b .chillFailure =
      ((p.modOrder (p.build b).order (fun o => { o with state := .failed })).modBuild b (fun z =>
        { z with state := .draining, order := 0, committed := 0, dwell := .stopped, chilledHeld := 0, pointer := 0,
                 stepTimer := .stopped, waitTimer := .stopped, stopCause := .none, heldStep := none })).handOver
          takeLaneOut b := by
  simp only [Part.abort, h]
  rw [if_neg (by simp), if_neg (by simp)]
  rfl

/-! ### Releases and walks (R83, R181 to R190) -/

/-- A build goes to release. -/
theorem release_releases (b : Nat) (p : Part) : p.releases b (p.release b) := by
  unfold Part.releases
  intro pack x
  have hp : pack = p.packCount b := by
    simp only [pack, Part.packCount]
    congr 2
  refine ⟨fun h => ?_, fun h => ?_⟩
  · simp only [Part.release]
    rw [← hp, Part.post_room (by simp [Part.bayCommand]) h]
    exact Part.Same.refl _
  · simp only [Part.release]
    rw [← hp, Part.post_full (by simp [Part.bayCommand]) (by omega)]
    exact Part.Same.refl _

/-- A walk stops with a cause. -/
theorem stopBuild_stops (b : Nat) (cause : StopCause) (p : Part) : p.stops b cause (p.stopBuild takeLaneOut b cause) := by
  refine ⟨_, dropStyle_same _ _, ?_⟩
  have e : (p.modBuild b (fun y =>
      { y with state := .finishStopped, stopCause := cause, stepTimer := .stopped, waitTimer := .stopped,
               heldStep := none })).styleAt b = p.styleAt b := by
    simp [Part.styleAt, Part.orderAt]
  simp only [Part.stopBuild, e]

/-- The bound on the steps of a walk is never reached: from a pointer, any bound that reaches the end of the store gives the
same walk. -/
theorem walk_bound (off : LaneAction) (b : Nat) : ∀ (n m : Nat) (p : Part), 2048 < n + (p.build b).pointer →
    2048 < m + (p.build b).pointer → p.walk off n b = p.walk off m b := by
  intro n
  induction n with
  | zero =>
    intro m p hn _
    have hp : 2048 ≤ (p.build b).pointer := by omega
    cases m with
    | zero => rfl
    | succ m =>
      simp only [Part.walk]
      rw [if_pos (by simpa [Config.stepCount] using hp)]
  | succ n ih =>
    intro m p hn hm
    cases m with
    | zero =>
      simp only [Part.walk]
      rw [if_pos (by change 2048 ≤ _; omega)]
    | succ m =>
      simp only [Part.walk]
      split
      · rfl
      · rename_i hlt
        change ¬ 2048 ≤ (p.build b).pointer at hlt
        split <;> try rfl
        apply ih <;> simp only [Part.advancePointer, Part.build_modBuild_self, pointer_raise] <;>
          change 2048 < _ + min 2048 (_ + 1) <;> omega

/-- The step at the pointer is executed. -/
theorem executeStep_walks (b : Nat) (p : Part) : p.walks b (p.executeStep takeLaneOut b) := by
  unfold Part.walks
  intro x
  have unfolded : p.executeStep takeLaneOut b = p.walk takeLaneOut (2048 + 1) b := rfl
  refine ⟨fun h => ?_, fun h => ?_⟩
  · rw [unfolded, Part.walk, if_pos (by exact h)]
    exact stopBuild_stops _ _ _
  · rw [unfolded, Part.walk, if_neg (by change ¬ 2048 ≤ x.pointer; omega)]
    refine ⟨fun e => ?_, fun refuse code parameter e => ?_, fun n e => ?_, fun tag e => ?_, fun e => ?_⟩ <;>
      rw [show p.step (p.build b).pointer = _ from e]
    · exact stopBuild_stops _ _ _
    · refine ⟨fun hq => ?_, fun hq => ?_⟩ <;> dsimp only [Part.postStep]
      · rw [Part.post_room (by simp [Part.bayCommand]) hq]
        exact Part.Same.refl _
      · rw [Part.post_full (by simp [Part.bayCommand]) (by omega)]
        exact Part.Same.refl _
    · exact Part.Same.refl _
    · have hp := pointer_raise takeLaneOut { kind := .stepNote, bay := b, order := x.order, article := tag } rfl p b
      have e : ∀ q : Part, (q.build b).pointer = x.pointer →
          q.advancePointer b = q.modBuild b (fun y => { y with pointer := y.pointer + 1 }) := fun q hq => by
        refine modBuild_congr _ _ ?_
        rw [show min Config.stepCount ((q.build b).pointer + 1) = (q.build b).pointer + 1 by
          rw [hq]
          change min 2048 _ = _
          omega]
      dsimp only
      rw [e _ hp]
      apply walk_bound <;> simp only [Part.build_modBuild_self, Config.stepCount] <;> omega
    · refine ⟨_, ?_, release_releases _ _⟩
      exact Part.Same.modBuild (dropStyle_same (p.styleAt b) p) b _

end Sys2Proof.Machine
end

