-- ==== Sys2Proof/Laws/PerInstr.lean ====
section
/-! SUPPORT. Statements about every command, one lemma for each constructor of `Instr`. -/

namespace Sys2Proof.Laws

/-- The family FrameCarrier: a well-formed command that is a slot reaching the part stands on a whole slot, its 24 payload
bytes there, and a slot that is not sound is DAMAGED_FRAME's alone (R1, R2, R5). -/
def FrameCarrier.Statement (i : Instr) : Prop :=
  i.wf = true → ∀ f, i.slot = some f → f.packet.payload.length = 24 ∧ (f.sound = false → i = .damagedFrame f)

/-- A command that is no slot carries no frame. -/
theorem FrameCarrier.of_none {i : Instr} (h : i.slot = none) : FrameCarrier.Statement i := by
  intro _ f hf
  simp [h] at hf

/-- A command whose slot is the sealed slot of a frame with a whole payload carries it. -/
theorem FrameCarrier.of_seal {i : Instr} {k : Byte} {pkt : Packet} (h : i.slot = some (pkt.seal k))
    (hw : i.wf = true → pkt.payload.length = 24) : FrameCarrier.Statement i := by
  intro hi f hf
  rw [h] at hf
  cases hf
  exact ⟨hw hi, by simp [Packet.sound_seal]⟩

/-- A frame whose checks begin with its length has a whole payload. -/
theorem whole {pkt : Packet} {c : Bool} (h : (pkt.wf && c) = true) : pkt.payload.length = 24 := by
  simp [Packet.wf] at h
  exact h.1

/-- A frame checked for its length alone has a whole payload. -/
theorem wholeAlone {pkt : Packet} (h : pkt.wf = true) : pkt.payload.length = 24 := by
  simpa [Packet.wf] using h

theorem FrameCarrier.powerOnReset (event : ResetEvent) : FrameCarrier.Statement (.powerOnReset event) :=
  FrameCarrier.of_none rfl

theorem FrameCarrier.slotForward (slot : Frame) : FrameCarrier.Statement (.slotForward slot) := by
  intro hi f hf
  cases hf
  simp [Instr.wf, Packet.wf] at hi
  simp [hi]

theorem FrameCarrier.damagedFrame (slot : Frame) : FrameCarrier.Statement (.damagedFrame slot) := by
  intro hi f hf
  cases hf
  simp [Instr.wf, Packet.wf] at hi
  simp [hi]

theorem FrameCarrier.emptySlotFill : FrameCarrier.Statement .emptySlotFill := FrameCarrier.of_none rfl

theorem FrameCarrier.normalEntryLeft : FrameCarrier.Statement .normalEntryLeft := FrameCarrier.of_none rfl

theorem FrameCarrier.ownFrameStrip (kind : SentKind) (pkt : Packet) : FrameCarrier.Statement (.ownFrameStrip kind pkt) :=
  FrameCarrier.of_seal rfl whole

theorem FrameCarrier.callUndelivered (pkt : Packet) : FrameCarrier.Statement (.callUndelivered pkt) :=
  FrameCarrier.of_seal rfl whole

theorem FrameCarrier.steerUndelivered (pkt : Packet) : FrameCarrier.Statement (.steerUndelivered pkt) :=
  FrameCarrier.of_seal rfl whole

theorem FrameCarrier.bayCommandUndelivered (pkt : Packet) : FrameCarrier.Statement (.bayCommandUndelivered pkt) :=
  FrameCarrier.of_seal rfl whole

theorem FrameCarrier.noticeUndelivered (pkt : Packet) : FrameCarrier.Statement (.noticeUndelivered pkt) :=
  FrameCarrier.of_seal rfl whole

theorem FrameCarrier.adminReplyUndelivered (pkt : Packet) : FrameCarrier.Statement (.adminReplyUndelivered pkt) :=
  FrameCarrier.of_seal rfl whole

theorem FrameCarrier.tick (pkt : Packet) : FrameCarrier.Statement (.tick pkt) :=
  FrameCarrier.of_seal rfl wholeAlone

theorem FrameCarrier.pitch (pkt : Packet) : FrameCarrier.Statement (.pitch pkt) :=
  FrameCarrier.of_seal rfl wholeAlone

theorem FrameCarrier.sighting (pkt : Packet) : FrameCarrier.Statement (.sighting pkt) :=
  FrameCarrier.of_seal rfl wholeAlone

theorem FrameCarrier.answer (pkt : Packet) : FrameCarrier.Statement (.answer pkt) :=
  FrameCarrier.of_seal rfl wholeAlone

theorem FrameCarrier.arrived (pkt : Packet) : FrameCarrier.Statement (.arrived pkt) :=
  FrameCarrier.of_seal rfl whole

theorem FrameCarrier.departed (pkt : Packet) : FrameCarrier.Statement (.departed pkt) :=
  FrameCarrier.of_seal rfl whole

theorem FrameCarrier.stepDone (pkt : Packet) : FrameCarrier.Statement (.stepDone pkt) :=
  FrameCarrier.of_seal rfl whole

theorem FrameCarrier.stepRefused (pkt : Packet) : FrameCarrier.Statement (.stepRefused pkt) :=
  FrameCarrier.of_seal rfl whole

theorem FrameCarrier.stepFault (pkt : Packet) : FrameCarrier.Statement (.stepFault pkt) :=
  FrameCarrier.of_seal rfl whole

theorem FrameCarrier.cleared (pkt : Packet) : FrameCarrier.Statement (.cleared pkt) :=
  FrameCarrier.of_seal rfl whole

theorem FrameCarrier.blocked (pkt : Packet) : FrameCarrier.Statement (.blocked pkt) :=
  FrameCarrier.of_seal rfl whole

theorem FrameCarrier.unblocked (pkt : Packet) : FrameCarrier.Statement (.unblocked pkt) :=
  FrameCarrier.of_seal rfl whole

theorem FrameCarrier.answerTimeout (record : Nat) : FrameCarrier.Statement (.answerTimeout record) :=
  FrameCarrier.of_none rfl

theorem FrameCarrier.retryTimeout (record : Nat) : FrameCarrier.Statement (.retryTimeout record) :=
  FrameCarrier.of_none rfl

theorem FrameCarrier.persistTimeout (record : Nat) : FrameCarrier.Statement (.persistTimeout record) :=
  FrameCarrier.of_none rfl

theorem FrameCarrier.steerConfirmTimeout (carrier : Nat) : FrameCarrier.Statement (.steerConfirmTimeout carrier) :=
  FrameCarrier.of_none rfl

theorem FrameCarrier.chillExpiry (bay : Nat) : FrameCarrier.Statement (.chillExpiry bay) :=
  FrameCarrier.of_none rfl

theorem FrameCarrier.stepTimeout (bay : Nat) : FrameCarrier.Statement (.stepTimeout bay) :=
  FrameCarrier.of_none rfl

theorem FrameCarrier.waitTimeout (bay : Nat) : FrameCarrier.Statement (.waitTimeout bay) :=
  FrameCarrier.of_none rfl

theorem FrameCarrier.pacingTimeout (dest : Nat) : FrameCarrier.Statement (.pacingTimeout dest) :=
  FrameCarrier.of_none rfl

theorem FrameCarrier.badRequest (pkt : Packet) : FrameCarrier.Statement (.badRequest pkt) :=
  FrameCarrier.of_seal rfl whole

theorem FrameCarrier.tableWrite (pkt : Packet) : FrameCarrier.Statement (.tableWrite pkt) :=
  FrameCarrier.of_seal rfl whole

theorem FrameCarrier.tableRead (pkt : Packet) : FrameCarrier.Statement (.tableRead pkt) :=
  FrameCarrier.of_seal rfl whole

theorem FrameCarrier.orderHead (pkt : Packet) : FrameCarrier.Statement (.orderHead pkt) :=
  FrameCarrier.of_seal rfl whole

theorem FrameCarrier.orderLine (pkt : Packet) : FrameCarrier.Statement (.orderLine pkt) :=
  FrameCarrier.of_seal rfl whole

theorem FrameCarrier.orderCancel (pkt : Packet) : FrameCarrier.Statement (.orderCancel pkt) :=
  FrameCarrier.of_seal rfl whole

theorem FrameCarrier.orderPurge (pkt : Packet) : FrameCarrier.Statement (.orderPurge pkt) :=
  FrameCarrier.of_seal rfl whole

theorem FrameCarrier.orderRead (pkt : Packet) : FrameCarrier.Statement (.orderRead pkt) :=
  FrameCarrier.of_seal rfl whole

theorem FrameCarrier.buildRead (pkt : Packet) : FrameCarrier.Statement (.buildRead pkt) :=
  FrameCarrier.of_seal rfl whole

theorem FrameCarrier.bayService (pkt : Packet) : FrameCarrier.Statement (.bayService pkt) :=
  FrameCarrier.of_seal rfl whole

theorem FrameCarrier.bayHold (pkt : Packet) : FrameCarrier.Statement (.bayHold pkt) :=
  FrameCarrier.of_seal rfl whole

theorem FrameCarrier.buildAbort (pkt : Packet) : FrameCarrier.Statement (.buildAbort pkt) :=
  FrameCarrier.of_seal rfl whole

theorem FrameCarrier.shortAccept (pkt : Packet) : FrameCarrier.Statement (.shortAccept pkt) :=
  FrameCarrier.of_seal rfl whole

theorem FrameCarrier.finishResume (pkt : Packet) : FrameCarrier.Statement (.finishResume pkt) :=
  FrameCarrier.of_seal rfl whole

theorem FrameCarrier.finishSkip (pkt : Packet) : FrameCarrier.Statement (.finishSkip pkt) :=
  FrameCarrier.of_seal rfl whole

theorem FrameCarrier.laneState (pkt : Packet) : FrameCarrier.Statement (.laneState pkt) :=
  FrameCarrier.of_seal rfl whole

theorem FrameCarrier.mode (pkt : Packet) : FrameCarrier.Statement (.mode pkt) :=
  FrameCarrier.of_seal rfl whole

theorem FrameCarrier.restart (pkt : Packet) : FrameCarrier.Statement (.restart pkt) :=
  FrameCarrier.of_seal rfl whole

theorem FrameCarrier.countersRead (pkt : Packet) : FrameCarrier.Statement (.countersRead pkt) :=
  FrameCarrier.of_seal rfl whole

end Sys2Proof.Laws
end

