-- ==== Sys2Proof/Laws/Requests.lean ====
section
/-! SUPPORT. What the bodies of the Admin Requests keep: a read returns the part it was given, and the other bodies keep
every property that the primitive writes keep (Laws/Kept.lean), with the writes of the tables, the mode and the book named
where they make them. -/

namespace Sys2Proof.Machine

@[simp] theorem part_accept (data : List Byte) (p : Part) : (accept data p).part = p := rfl
@[simp] theorem part_refuse (st : Status) (p : Part) : (refuse st p).part = p := rfl
@[simp] theorem part_served (b : Nat) (f : Part → Part) (p : Part) : (served b f p).part = f p := rfl

/-! ### Reads change nothing (R26, R28, R62, R112) -/

theorem part_tableRead (pkt : Packet) (p : Part) : (tableRead pkt p).part = p := by
  unfold tableRead
  split <;> rfl

theorem part_countersRead (pkt : Packet) (p : Part) : (countersRead pkt p).part = p := by
  unfold countersRead
  dsimp only
  split <;> rfl

theorem part_orderRead (pkt : Packet) (p : Part) : (orderRead pkt p).part = p := by
  unfold orderRead
  split
  · rfl
  · dsimp only
    split
    · rfl
    · split
      · rfl
      · split <;> rfl

theorem part_buildRead (pkt : Packet) (p : Part) : (buildRead pkt p).part = p := by
  unfold buildRead
  dsimp only
  repeat' split
  all_goals rfl

namespace Kept

variable {P : Part → Prop} (K : Kept P) {p : Part}
include K

/-- A table entry stored (R27): beyond the tables, the zone credits and a stalled destination's post attempt. -/
theorem storeEntry (ht : ∀ f {q : Part}, P q → P (q.modTables f)) {t : TableId} {i : Nat} {pkt : Packet} {p' : Part}
    (e : p.storeEntry t i pkt = some p') (h : P p) : P p' := by
  have hm := fun f => ht f h
  unfold Part.storeEntry at e
  cases t <;> dsimp only at e
  case bayTable =>
    cases hb : bayEntry pkt with
    | none => rw [hb] at e; cases e
    | some d =>
      rw [hb, Option.bind_some] at e
      split at e
      · cases e
      · cases e; exact hm _
  case hallConstants => cases e; exact hm _
  case tares => cases e; exact hm _
  case calendar => cases e; exact hm _
  case zoneWeights => cases e; exact K.reloadCredits (hm _)
  case styles => split at e <;> cases e; exact hm _
  case managers => split at e <;> cases e; exact hm _
  case destinations =>
    obtain ⟨a, -, rfl⟩ := Option.map_eq_some_iff.mp e
    exact kept_ite (K.postAttempt i (hm _)) (hm _)
  all_goals
    obtain ⟨a, -, rfl⟩ := Option.map_eq_some_iff.mp e
    exact hm _

theorem tableWrite (ht : ∀ f {q : Part}, P q → P (q.modTables f)) (pkt : Packet) (h : P p) :
    P (Machine.tableWrite pkt p).part := by
  unfold Machine.tableWrite
  split
  · exact h
  · split
    · exact h
    · split
      · exact h
      · split
        · exact h
        · next e => rw [part_accept]; exact K.storeEntry ht e h

theorem orderLine (pkt : Packet) (h : P p) : P (Machine.orderLine Machine.takeLaneOut pkt p).part := by
  unfold Machine.orderLine
  split
  · exact h
  · split
    · exact h
    · split
      · exact h
      · split
        · exact h
        · split
          · exact h
          · have h' : ∀ f, P (p.modOrder (orderNumber pkt) f) := fun f => K.modOrder _ f h
            rw [part_accept]
            exact kept_ite (K.bindingEvent K.takeLaneOut _ (h' _)) (h' _)

theorem orderCancel (pkt : Packet) (h : P p) : P (Machine.orderCancel Machine.takeLaneOut pkt p).part := by
  unfold Machine.orderCancel
  split
  · exact h
  · dsimp only
    split
    · exact h
    · split
      · split
        · exact h
        · rw [part_accept]; exact K.abort K.takeLaneOut _ _ h
      · rw [part_accept]; exact K.modOrder _ _ h

theorem bayOut (b : Nat) (h : P p) : P (Machine.bayOut b p).part := by
  have h' : ∀ f, P (p.modBuild b f) := fun f => K.modBuild b f h
  unfold Machine.bayOut
  split
  · split
    · rw [part_served]; exact h' _
    · exact h
  · exact h
  · rw [part_served]; exact h' _
  · exact h

theorem bayIn (b : Nat) (h : P p) : P (Machine.bayIn Machine.takeLaneOut b p).part := by
  have h' : ∀ f, P (p.modBuild b f) := fun f => K.modBuild b f h
  unfold Machine.bayIn
  split
  · dsimp only
    split
    · exact h
    · rw [part_served]; exact K.bindingEvent K.takeLaneOut _ (h' _)
  · rw [part_served]; exact h' _
  · exact h

theorem bayService (pkt : Packet) (h : P p) : P (Machine.bayService Machine.takeLaneOut pkt p).part := by
  unfold Machine.bayService
  dsimp only
  split
  · exact h
  · split
    · exact K.bayOut _ h
    · exact K.bayIn _ h
    · exact h

theorem bayHold (pkt : Packet) (h : P p) : P (Machine.bayHold Machine.takeLaneOut pkt p).part := by
  unfold Machine.bayHold
  dsimp only
  split
  · exact h
  · split
    · exact h
    · rw [part_accept]; exact K.bindingEvent K.takeLaneOut _ (K.modBuild _ _ h)

theorem buildAbort (pkt : Packet) (h : P p) : P (Machine.buildAbort Machine.takeLaneOut pkt p).part := by
  unfold Machine.buildAbort
  dsimp only
  split
  · exact h
  · split
    · exact h
    · split
      · exact h
      · rw [part_accept]; exact K.abort K.takeLaneOut _ _ h

theorem shortAccept (pkt : Packet) (h : P p) : P (Machine.shortAccept Machine.takeLaneOut pkt p).part := by
  unfold Machine.shortAccept
  dsimp only
  split
  · exact h
  · split
    · exact h
    · rw [part_accept]; exact K.gathered K.takeLaneOut _ h

theorem finishRequest {go : Nat → Part → Part} (hgo : ∀ b {q : Part}, P q → P (go b q)) (pkt : Packet) (h : P p) :
    P (Machine.finishRequest go pkt p).part := by
  unfold Machine.finishRequest
  dsimp only
  split
  · exact h
  · split
    · exact h
    · split
      · exact h
      · rw [part_accept]; exact hgo _ (K.backToFinishing _ h)

theorem laneState (pkt : Packet) (h : P p) : P (Machine.laneState Machine.takeLaneOut pkt p).part := by
  unfold Machine.laneState
  dsimp only
  split
  · exact h
  · split
    · rw [part_accept]; exact kept_ite (K.goOffline K.takeLaneOut _ h) h
    · split
      · exact h
      · rw [part_accept]; exact K.modLane _ _ h
    · rw [part_accept]; exact K.clearStockOut _ h
    · exact h

theorem modeRequest (hm : ∀ m {q : Part}, P q → P { q with mode := m }) (pkt : Packet) (h : P p) :
    P (Machine.modeRequest Machine.takeLaneOut pkt p).part := by
  have h' : ∀ m, P (p.enterMode Machine.takeLaneOut m) := by
    intro m
    unfold Part.enterMode
    split
    · exact hm _ (kept_foldl (fun _ b hq => K.giveUpBay b hq) _ h)
    · exact hm _ h
    · exact K.bindingEvent K.takeLaneOut _ (hm _ h)
  unfold Machine.modeRequest
  split
  · exact h
  · split
    · exact h
    · split
      · exact h
      · rw [part_accept]; exact h' _

end Kept

end Sys2Proof.Machine
end

