-- ==== Sys2Proof/Tests/Slice0.lean ====
section
/-! SUPPORT. The package's own tests: the well-formedness checks refusing ill-formed commands, slots written out byte by byte
with the commands they spell, single commands against the spec's worked sequences, and for every statement with
hypotheses a state and operands that meet them. -/

namespace Sys2Proof.Tests

open Sys2Proof.Machine

set_option Elab.async false -- a theorem checked by the kernel holds a thread; one at a time keeps the memory bounded

/-! ### A small hall -/

/-- A frame with mark 0 and a payload filled with 0. -/
def frame (dst src : Nat) (l : List Byte) : Packet := ⟨0, BitVec.ofNat 16 dst, BitVec.ofNat 16 src, payload l⟩

/-- A frame to the part (node 1) from node 700, the manager. -/
def request (code : Nat) (l : List Byte) : Packet := frame 1 700 (b8 code ++ b8 5 ++ l)

/-- A Bay Report of bay 3 (bay node 41). -/
def report (code n packed : Nat) : Packet := frame 1 41 (b8 code ++ b16 n ++ b8 packed)

/-- A Sighting at an arch: carrier, type 0, article, gross. -/
def sighting (arch carrier article gross : Nat) : Packet :=
  frame 1023 800 (b8 arch ++ b16 carrier ++ b8 0 ++ b16 article ++ b16 gross)

/-- An Answer of lane 7 (node 20): tag, outcome, stock, carriers. -/
def answer (tag outcome stock : Nat) (ids : List Nat) : Packet :=
  frame 1 20 (b16 tag ++ b8 outcome ++ b8 stock ++ b8 ids.length ++ (ids.map b16).flatten)

/-- One of the part's own frames come round untaken. -/
def returned (dst : Nat) (l : List Byte) : Packet := frame dst 1 l

/-- The tables of a small hall: articles 10 (ambient, lane 7), 11 (chilled, lane 8) and 13 (no
lane, substituted by 10), bay 3 with steering arch 5, a scale
at arch 6, and a finish list. -/
def smallTables : Tables :=
  { articles :=
      [(10, { valid := true, nominal := 500, tolerance := 4, homeLane := 7 }),
       (11, { valid := true, zone := .chilled, nominal := 300, tolerance := 2, homeLane := 8 }),
       (13, { valid := true, nominal := 100, group := 1 })],
    groups := [(1, [13, 10])],
    laneDir :=
      [(7, { node := 20, burst := 3, configured := true }),
       (8, { node := 21, zone := .chilled, burst := 1, configured := true })],
    scales := [(6, true)],
    bayDir := [(3, { diverter := 40, bayNode := 41, arch := 5, spur := 4, zones := 15 })],
    consts := [30, 3000, 50, 100, 40, 6000, 2, 3, 15, 2],
    tares := [50, 0, 0, 0],
    calendar := [(0, 7)],
    styles := [(2, 0)],
    steps := [(0, .action true 9 77), (1, .action false 8 66), (2, .wait 30), (3, .note 44), (4, .finish)],
    routing := [(15, { dest := 1, tags := 6 })],
    dests := [(1, { node := 50, pacing := 10 })] }

/-- An order of two lines, bound to bay 3. -/
def boundOrder : Order :=
  { priority := 1, due := 900, style := 2, ceiling := 9000, declared := 2, tolerant := false, seq := 5,
    state := .bound 3,
    lines :=
      [(0, { article := 10, quantity := 5, mode := .home, held := 1, enRoute := 2, outstanding := 2, uncalled := 0 }),
       (1, { article := 11, quantity := 2, mode := .persist, held := 2, uncalled := 0 })] }

/-- The hold records of bay 3: two chilled ones of line 1 and one of line 0. -/
def smallPool : HoldPool :=
  { free := [20, 21],
    recs :=
      [(12, { carrier := 112, role := .line 1, article := 11, weight := 300, chilled := true, arrival := 60 }),
       (13, { carrier := 113, role := .line 0, article := 10, weight := 500, arrival := 61 }),
       (14, ⟨114, .line 1, 11, 310, true, true, false, .none, 62⟩)] }

/-- One SENT call of lane 7, and the two lanes. -/
def smallCalls : CallUnit :=
  { recs := [(4, ⟨.sent, 6, 3, 0, .home, 0, 10, 500, 7, 2, 2, .running 12, .stopped, .stopped, false, 9, 7⟩)],
    lanes := [(7, { online := true, misses := 1, busy := some 4 }), (8, { online := true })],
    seq := 9 }

/-- The hall in PAUSED, with the order gathering at bay 3. -/
def hall : Part :=
  { ring := { straps := 1 },
    hall := ⟨100, true⟩,
    mode := .paused,
    tables := smallTables,
    book := { orders := [(77, boundOrder)], seq := 5 },
    builds :=
      [(3, { state := .gathering, order := 77, epoch := 2, committed := 3110, hold := [12, 13, 14], chilledHeld := 2 })],
    pool := smallPool,
    calls := smallCalls,
    carriers :=
      [(100, { state := .enRoute 3 0, article := 10 }), (101, { state := .enRoute 3 0, article := 10 }),
       (105, { state := .reject, article := 10 }), (112, { state := .held 3 12 (.line 1), article := 11 }),
       (113, { state := .held 3 13 (.line 0), article := 10 }),
       (114, { state := .held 3 14 (.line 1), article := 11, net := some 310 })] }

/-- The machine with a part and no command waiting. -/
def machine (p : Part) : State := ⟨[], p⟩

/-- The build of bay 3 changed. -/
def withBuild (f : Build → Build) (p : Part) : Part := p.modBuild 3 f

/-- Call record 4 changed. -/
def withCall (f : Call → Call) (p : Part) : Part := p.modCall 4 f

/-- A full normal queue. -/
def fullQueue (p : Part) : Part := p.modNormal (fun _ => List.replicate 48 ⟨.notice, 50, []⟩)

/-! ### States the statements are met in -/

/-- The machine of the small hall. -/
def atHall : State := machine hall

/-- The hall in CONFIG. -/
def configHall : State := machine { hall with mode := .config }

/-- The hall in RUN. -/
def runHall : Part := { hall with mode := .run }

/-- The hall with a full normal queue. -/
def fullHall : State := machine (fullQueue hall)

/-- The hall before its first Tick. -/
def unticked : State := machine { hall with hall := {} }

/-- The hall with manager node 5. -/
def managed : State := machine { hall with tables := { smallTables with managers := [(1, 5)] } }

/-- A slot whose check word is wrong. -/
def damaged : Frame := ⟨0x31, returned 20 [], 77⟩

/-- One frame waiting in each insert queue. -/
def waiting : Part :=
  { hall with ring := { hall.ring with
      urgent := [⟨.steer, 40, steerPayload 5 3⟩], normal := [⟨.call, 20, []⟩, ⟨.notice, 50, []⟩] } }

/-- Only normal frames waiting. -/
def waitingNormal : Part := { waiting with ring := { waiting.ring with urgent := [] } }

/-- Two reports of normal entries that have left. -/
def leftTwice : Part := { hall with ring := { hall.ring with left := 2 } }

/-- A STEP of bay 3. -/
def someStep : Post := ⟨.bayCommand, 41, b8 1⟩

/-- The same, with a STEP held by bay 3. -/
def leftWithStep : Part := withBuild (fun y => { y with heldStep := some someStep }) leftTwice

/-- A line carrier RETURNING for bay 3. -/
def returning : Part := hall.setCarrier 112 { state := .returning 3 12 (.line 1), article := 11 }

/-- Bay 3 in a state. -/
def inState (state : BuildState) : Part := withBuild (fun y => { y with state := state }) hall

/-- Bay 3 in a state with an empty hold list. -/
def emptyBay (state : BuildState) : State := machine (withBuild (fun y => { y with state := state, hold := [] }) hall)

/-- Bay 3 walking its finish list at a pointer, its step timer running. -/
def walking (pointer : Nat) : State :=
  machine (withBuild (fun y => { y with state := .finishing, stepTimer := .running 9, pointer := pointer }) hall)

/-- Bay 3 waiting at a WAIT step whose time is up. -/
def waited : State := machine (withBuild (fun y => { y with waitTimer := .expired, pointer := 2 }) (inState .finishing))

/-- Bay 3 with a step whose time is up. -/
def overdue : State := machine (withBuild (fun y => { y with stepTimer := .expired, pointer := 1 }) (inState .finishing))

/-- Bay 3 stopped at a pointer. -/
def stoppedAt (pointer : Nat) : State :=
  machine (withBuild (fun y => { y with stopCause := .fault, pointer := pointer }) (inState .finishStopped))

/-- Bay 3 in SHORT_HOLD, its order of a style. -/
def shortHeld (style : Nat) : State := machine ((inState .shortHold).modOrder 77 (fun o => { o with style := style }))

/-- Bay 3 with its dwell time up and a number of chill expiries behind it. -/
def chilled (count : Nat) : State := machine (withBuild (fun y => { y with dwell := .expired, chillCount := count }) hall)

/-- Destination 1 with a queue, its pacing timer's expiry to be taken, and a pacing interval. -/
def paced (queue : List NoticeEntry) (node pacing : Nat) : Part :=
  { hall with
    tables := { smallTables with dests := [(1, { node := node, pacing := pacing })] },
    notices := [(1, { queue := queue, lost := 3, timer := .expired, state := .pacing })] }

/-- A notice waiting for destination 1. -/
def someNotice : NoticeEntry := ⟨{ kind := .tickFault }, 6, 90⟩

/-- Destination 1 in a posting state with so many notices waiting. -/
def noticesWaiting (n : Nat) (state : PostingState) : State :=
  machine { hall with notices := [(1, { queue := List.replicate n someNotice, state := state })] }

/-- Destination 1 IDLE with a node and a pacing interval. -/
def idleDest (node pacing : Nat) : Part :=
  { hall with tables := { smallTables with dests := [(1, { node := node, pacing := pacing })] } }

/-- Call record 4 with a timer, a state or a count of its own. -/
def callWith (f : Call → Call) : State := machine (withCall f hall)

/-- Call record 4 back in lane 7's queue, its persist time up. -/
def persistDue : State :=
  machine ((withCall (fun c => { c with state := .queued, persist := .expired }) hall).modLane 7 (fun l =>
    { l with busy := none, queue := [4] }))

/-- Lane 7 free, with call record 9 behind record 4 in its queue, in RUN with the calendar at a pointer. -/
def callWaiting (pointer : Nat) : Part :=
  { (runHall.modLane 7 (fun l => { l with busy := none, queue := [4, 9] })).modCall 9 (fun _ =>
      ⟨.queued, 1, 3, 0, .home, 0, 10, 500, 7, 4, 0, .stopped, .stopped, .stopped, false, 8, 7⟩) with
    cal := { pointer := pointer } }

/-- Call 9 waits at lane 7 and call 11, of the same build and sequence number, at lane 9, both AMBIENT; call 5 waits at
lane 8, CHILLED. The calendar is at a free entry, the zone pointer at CHILLED, the credits and weights as given. -/
def offering (credits weights : List Nat) : Part :=
  { (((callWaiting 1).modLane 9 (fun l => { l with online := true, queue := [11] })).modCall 11 (fun _ =>
      { (callWaiting 1).call 9 with lane := 9 })).modLane 8 (fun l => { l with queue := [5] }) |>.modCall 5 (fun _ =>
      { (callWaiting 1).call 9 with lane := 8, article := 11 }) with
    cal := { pointer := 1, credits := credits, zone := .chilled },
    tables := { smallTables with weights := weights } }

/-- Carrier 100 of bay 4, whose build is in the state given and holds a reservation. -/
def ofBayFour (entry : CarrierState) (state : BuildState) : State :=
  machine ((hall.modBuild 4 (fun y => { y with state := state, order := 78, reserved := 1 })).setCarrier 100
    { state := entry, article := 10 })

/-- A carrier STEERED to bay 3 with record 20, its timer as given. -/
def steered (timer : Timer) (state : BuildState) : State :=
  machine ((withBuild (fun y => { y with state := state, reserved := 1 })
    { hall with pool := { smallPool with free := [21] } }).setCarrier 101
      { state := .steered 3 0 20 timer, article := 10, laps := 2 })

/-- The same for a chilled article of line 1. -/
def steeredChilled : State :=
  machine ((steered (.running 5) .gathering).part.setCarrier 101 { state := .steered 3 1 20 (.running 5), article := 11 })

/-- A full urgent queue. -/
def urgentFull : State :=
  machine { hall with ring := { hall.ring with urgent := List.replicate 16 ⟨.steer, 9, []⟩ } }

/-- An empty free list, armed or not. -/
def poolDry (armed : Bool) : State := machine { hall with pool := { smallPool with free := [], armed := armed } }

/-- A FOREIGN carrier RETURNING for bay 3. -/
def foreignReturning : State :=
  machine ((withBuild (fun y => { y with foreigns := 1 }) hall).setCarrier 112
    { state := .returning 3 12 (.foreign .reject), article := 11 })

/-- The order as a DRAFT of which line 0 is loaded. -/
def draft : Order :=
  { boundOrder with
    state := .draft, lines := [(0, { article := 10, quantity := 5, mode := .home, uncalled := 5 })] }

/-- The order when it is over. -/
def finished : Order := { boundOrder with state := .doneShort }

/-- A book of a DRAFT and a finished order. -/
def twoOrders : State := machine { hall with book := { orders := [(70, finished), (77, draft)], seq := 5 } }

/-- A book with no room. -/
def fullBook : State :=
  machine { hall with book := { orders := (List.range 1024).map (fun n => (n + 1, finished)), seq := 5 } }

/-- Lane 8 EMPTY, with a DEFERRED and a QUEUED call. -/
def emptyLane : State :=
  machine (((hall.modLane 8 (fun l => { l with stockOut := true, queue := [5, 6] })).modCall 5 (fun _ =>
    ⟨.deferred, 1, 3, 1, .persist, 0, 11, 300, 8, 1, 0, .stopped, .running 4, .running 7, false, 8, 8⟩)).modCall 6
      (fun _ => ⟨.queued, 1, 3, 1, .persist, 0, 11, 300, 8, 1, 0, .stopped, .stopped, .running 7, false, 8, 8⟩))

/-- Style 2 in use. -/
def styleInUse : State := machine (hall.modUseCount 2 (fun _ => 1))

/-- RESETN low. -/
def resetLow : State := machine { hall with ring := { hall.ring with resetHeld := true } }

/-- A pure forwarder of given straps. -/
def forwarder (straps : BitVec 10) : State := machine { hall with ring := { straps := straps } }

/-- The hall with an empty routing table. -/
def unrouted : State := machine { hall with tables := { smallTables with routing := [] } }

/-- An own frame that node 20 took. -/
def takenFrame : Packet := { returned 20 [] with mark := 1 }

/-- The order at a higher priority, and due later. -/
def sooner : Order := { boundOrder with priority := 0 }

/-- The order due later. -/
def later : Order := { boundOrder with due := 901 }

/-- The hall with one order, WAITING. -/
def waitingBook : Part := { hall with book := { orders := [(77, { draft with state := .waiting })] } }

/-- Call record 4 with its answer timer's expiry to be taken, SENT or ORPHAN. -/
def answerDue (state : CallState) : State := callWith (fun c => { c with answer := .expired, state := state })

/-- Call record 4 DEFERRED, its retry time up. -/
def retryDue : State := callWith (fun c => { c with state := .deferred, retry := .expired })

/-- Call record 4 SENT, its persist time up. -/
def persistSent : State := callWith (fun c => { c with persist := .expired })

/-- Call record 4 last sent to lane 8. -/
def sentElsewhere : State := callWith (fun c => { c with lastLane := 8 })

/-- Bay 3 blocked. -/
def blockedBay : State := machine (withBuild (fun y => { y with blocked := true }) hall)

/-- Bay 3 with its spur full. -/
def fullSpur : State := machine (withBuild (fun y => { y with reserved := 1 }) hall)

/-- A Steer waiting to leave. -/
def someSteer : Post := ⟨.steer, 40, steerPayload 5 3⟩

/-- A Call waiting to leave. -/
def someCall : Post := ⟨.call, 20, []⟩

/-- A Notice waiting to leave. -/
def somePost : Post := ⟨.notice, 50, []⟩

/-- The first line of `boundOrder`. -/
def homeLine : Line := { article := 10, quantity := 5, mode := .home, held := 1, enRoute := 2, outstanding := 2, uncalled := 0 }

/-- The second line of `boundOrder`. -/
def persistLine : Line := { article := 11, quantity := 2, mode := .persist, held := 2, uncalled := 0 }

/-- The hall with two commands waiting. -/
def commanded : State := ⟨[.emptySlotFill, .normalEntryLeft], hall⟩

/-- The RELEASE of bay 3. -/
def someRelease : Post := ⟨.bayCommand, 41, releasePayload 3⟩

/-- A RETURN of a carrier that is no longer RETURNING. -/
def deadReturn : Post := ⟨.bayCommand, 41, returnPayload [112]⟩

/-- Bay 3 with frames pending, and so many entries in the normal queue. -/
def pendingAt (n : Nat) (l : List Post) : Part :=
  (withBuild (fun y => { y with pending := l }) hall).modNormal (fun _ => List.replicate n somePost)

/-- Records 12 and 14 of bay 3 WANTED, and so many entries in the normal queue. -/
def wantedAt (n : Nat) : Part :=
  ((hall.setRec 12 { hall.holdRec 12 with mark := .wanted }).setRec 14 { hall.holdRec 14 with mark := .wanted }).modNormal
    (fun _ => List.replicate n somePost)

/-- A TABLE_WRITE. -/
def write (table index : Nat) (l : List Byte) : Packet := request 0x01 (b8 table ++ b16 index ++ l)

/-- Destination 1 STALLED with a notice. -/
def stalled : State := noticesWaiting 1 .stalled

/-- TICK_FAULT routed to destination 1 with an action. -/
def routedTo (action : RouteAction) : Part :=
  { hall with tables := { smallTables with routing := [(15, { dest := 1, action := action })] } }

/-- A line with three uncalled units. -/
def newLine (article : Nat) (mode : LineMode) : Line := { article := article, quantity := 5, mode := mode, uncalled := 3 }

/-- The order of bay 3 with one line and a ceiling. -/
def lineOrder (l : Line) (ceiling : Nat) : Order := { boundOrder with ceiling := ceiling, lines := [(0, l)] }

/-- The hall with that order. -/
def lineHall (l : Line) (ceiling : Nat) : Part := { hall with book := { orders := [(77, lineOrder l ceiling)], seq := 5 } }

/-- Line 0 of that order has uncalled units, and its build gathers. -/
abbrev asks (p : Part) (l : Line) (ceiling : Nat) : Prop :=
  p.orderAt 3 = some (lineOrder l ceiling) ∧ Map.find? (lineOrder l ceiling).lines 0 = some l ∧ 0 < l.uncalled ∧
    (p.build 3).state = .gathering

/-- Call record 4 SENT for a substitute of article 13, from a member on. -/
def movingOn (member : Nat) : Part :=
  (lineHall { newLine 13 .substitute with outstanding := 2, uncalled := 0 } 3110).modCall 4 (fun c =>
    { c with mode := .substitute, member := member, count := 2, article := 13 })

/-- Carrier 200 SURPLUS with an article. -/
def loose (article : Nat) (p : Part) : Part := p.setCarrier 200 { state := .surplus, article := article }

/-- Call record 4 QUEUED with so many units, and the line's units called. -/
def queuedFor (count : Nat) : Part :=
  ((loose 10 (lineHall homeLine 3110)).modCall 4 (fun c => { c with state := .queued, count := count })).modLane 7 (fun x =>
    { x with busy := none, queue := [4] })

/-- An order whose one line is settled, with units short. -/
def settledOrder (short style : Nat) : Order :=
  { boundOrder with
    style := style,
    lines := [(0, { article := 10, quantity := 5, mode := .home, held := 5 - short, uncalled := 0, short := short })] }

/-- Bay 3 with that order. -/
def settledHall (short style : Nat) : Part := { hall with book := { orders := [(77, settledOrder short style)] } }

/-- Bay 3 DRAINING with an empty hold list, its pending-out mark as given. -/
def drained (out : Bool) : Part :=
  withBuild (fun y => { y with state := .draining, hold := [], pendingOut := out }) hall

/-- Bay 3 IDLE with a FOREIGN record. -/
def idleForeign : Part :=
  ((withBuild (fun y => { y with state := .idle, hold := [12], foreigns := 1 }) hall).setRec 12
    { carrier := 112, role := .foreign, article := 11 }).setCarrier 112
      { state := .held 3 12 (.foreign .reject), article := 11 }

/-! ### Ill-formed commands are refused -/

/-- A frame of 23 payload bytes. -/
def shortFrame : Packet := ⟨0, 1, 7, List.replicate 23 0⟩

theorem test_wf_refuses_short_payloads :
    (Instr.tick shortFrame).wf = false ∧ (Instr.answer shortFrame).wf = false ∧
      (Instr.arrived { shortFrame with payload := 1 :: List.replicate 22 0 }).wf = false ∧
      (Instr.restart { shortFrame with payload := 0x41 :: List.replicate 22 0 }).wf = false := by decide

theorem test_wf_refuses_other_subcodes :
    (Instr.arrived (report 2 1 0)).wf = false ∧ (Instr.arrived (report 1 1 0)).wf = true := by decide

theorem test_wf_refuses_other_request_codes :
    (Instr.mode (request 0x41 [])).wf = false ∧ (Instr.mode (request 0x40 [])).wf = true := by decide

theorem test_wf_refuses_known_codes_as_bad_requests :
    (Instr.badRequest (request 0x42 [])).wf = false ∧ (Instr.badRequest (request 0x43 [])).wf = true := by decide

theorem test_wf_refuses_sound_damage_and_unsound_forwards :
    (Instr.damagedFrame ((returned 20 []).seal 0x31)).wf = false ∧ (Instr.slotForward damaged).wf = false ∧
      (Instr.damagedFrame damaged).wf = true := by decide

theorem test_wf_refuses_delivered_frames_as_undelivered :
    (Instr.callUndelivered takenFrame).wf = false ∧ (Instr.noticeUndelivered (returned 1023 [])).wf = false ∧
      (Instr.ownFrameStrip .call (returned 20 [])).wf = false ∧ (Instr.ownFrameStrip .call takenFrame).wf = true := by
  decide

theorem test_wf_refuses_numbers_out_of_range :
    (Instr.answerTimeout 512).wf = false ∧ (Instr.retryTimeout 512).wf = false ∧ (Instr.persistTimeout 511).wf = true ∧
      (Instr.steerConfirmTimeout 0).wf = false ∧ (Instr.steerConfirmTimeout 4096).wf = false ∧
      (Instr.chillExpiry 65).wf = false ∧ (Instr.stepTimeout 0).wf = false ∧ (Instr.waitTimeout 64).wf = true ∧
      (Instr.pacingTimeout 0).wf = false ∧ (Instr.pacingTimeout 5).wf = false := by decide

theorem test_passing_refuses_slots_of_other_rows :
    Frame.passing 1 ((frame 1 41 (b8 1)).seal 0x52) = false ∧ Frame.passing 1 ((frame 1 41 (b8 9)).seal 0x52) = true ∧
      Frame.passing 1 ((frame 20 1 []).seal 0x31) = false ∧ Frame.passing 1 ((frame 20 2 []).seal 0x31) = true ∧
      Frame.passing 1 ((frame 1 700 []).seal 0x91) = true := by decide

/-! ### Slots written out byte by byte (Tables 1-1 to 1-3), with the command each spells at node 1 -/

/-- The command that 32 bytes spell at node 1. -/
def spelled (l : List Byte) : Option Instr := (Frame.ofBytes l).map (commandOf 1)

/-- Some bytes of 0. -/
def zeros (n : Nat) : List Byte := List.replicate n 0

theorem test_slot_empty_slot_is_forwarded :
    spelled (zeros 32) =
      some (.slotForward emptyFrame) := by decide +kernel

theorem test_slot_pitch :
    spelled ([0x11, 0, 0x03, 0xFF, 0x03, 0x20, 0, 0, 0, 0x09] ++ zeros 20 ++ [0xE7, 0xD8]) =
      some (.pitch (frame 1023 800 (b32 9))) := by decide +kernel

theorem test_slot_tick :
    spelled ([0x12, 0, 0x03, 0xFF, 0x03, 0x20, 0, 0x01, 0x11, 0x70] ++ zeros 20 ++ [0xD5, 0x70]) =
      some (.tick (frame 1023 800 (b32 70000))) := by decide +kernel

theorem test_slot_sighting :
    spelled ([0x21, 0, 0x03, 0xFF, 0x03, 0x20, 0x09, 0x04, 0x4D, 0x01, 0x01, 0x37, 0x03, 0x4D] ++ zeros 16 ++ [0x7D, 0x58]) =
      some (.sighting (frame 1023 800 (b8 9 ++ b16 1101 ++ b8 1 ++ b16 311 ++ b16 845))) := by decide +kernel

theorem test_slot_answer :
    spelled ([0x32, 0, 0, 0x01, 0, 0x14, 0x60, 0x04, 0x01, 0x02, 0x01, 0x05, 0x15] ++ zeros 17 ++ [0x56, 0xE0]) =
      some (.answer (answer (callTag 4 6) 1 2 [1301])) := by decide +kernel

theorem test_slot_departed :
    spelled ([0x52, 0, 0, 0x01, 0, 0x29, 0x02, 0x04, 0xB1] ++ zeros 21 ++ [0xFA, 0xD2]) =
      some (.departed (report 2 1201 0)) := by decide +kernel

theorem test_slot_cleared :
    spelled ([0x52, 0, 0, 0x01, 0, 0x29, 0x06, 0, 0, 0x03] ++ zeros 20 ++ [0xA7, 0xD3]) =
      some (.cleared (report 6 0 3)) := by decide +kernel

theorem test_slot_order_line :
    spelled ([0x71, 0, 0, 0x01, 0x02, 0xBC, 0x11, 0x05, 0, 0, 0x23, 0x29, 0x01, 0x01, 0x37, 0x02, 0x01] ++ zeros 13 ++ [0x1F, 0x12]) =
      some (.orderLine (request 0x11 (b32 9001 ++ b8 1 ++ b16 311 ++ b8 2 ++ b8 1))) := by decide +kernel

theorem test_slot_lane_state :
    spelled ([0x71, 0, 0, 0x01, 0x02, 0xBC, 0x30, 0x05, 0x07, 0x02] ++ zeros 20 ++ [0x55, 0x3C]) =
      some (.laneState (request 0x30 (b8 7 ++ b8 2))) := by decide +kernel

theorem test_slot_unknown_request :
    spelled ([0x71, 0, 0, 0x01, 0x02, 0xBC, 0x15, 0x05] ++ zeros 22 ++ [0x77, 0x3E]) =
      some (.badRequest (request 0x15 [])) := by decide +kernel

theorem test_slot_steer_undelivered :
    spelled ([0x41, 0, 0x01, 0x36, 0, 0x01, 0x04, 0xB7, 0x07] ++ zeros 21 ++ [0xB2, 0x12]) =
      some (.steerUndelivered (returned 310 (b16 1207 ++ b8 7))) := by decide +kernel

theorem test_slot_call_delivered :
    spelled ([0x31, 0x01, 0, 0x14, 0, 0x01, 0, 0x04, 0, 0x0A, 0x03] ++ zeros 19 ++ [0xCB, 0xDC]) =
      some (.ownFrameStrip .call { returned 20 (b16 4 ++ b16 10 ++ b8 3) with mark := 1 }) := by decide +kernel

theorem test_slot_of_a_wrong_check_word_is_damaged :
    spelled ([0x12, 0, 0x03, 0xFF, 0x03, 0x20, 0, 0x01, 0x11, 0x70] ++ zeros 20 ++ [0xD5, 0x71]) =
      some (.damagedFrame ⟨0x12, frame 1023 800 (b32 70000), 0xD571⟩) := by decide +kernel

theorem test_slot_of_a_foreign_kind_is_forwarded :
    spelled ([0x91, 0, 0, 0x01, 0x02, 0xBC] ++ zeros 24 ++ [0x6C, 0x43]) =
      some (.slotForward ((frame 1 700 []).seal 0x91)) := by decide +kernel

theorem test_slots_have_32_bytes : spelled (zeros 31) = none ∧ spelled (zeros 33) = none := by decide

theorem test_no_table_word_spells_a_command : decodeTableWord 32 0 = none := rfl

/-! ### Single commands, with the results the spec's worked sequences give -/

/-- The part after a command that runs. -/
def after (c : Instr) (s : State) : Option Part :=
  match exec c s with
  | .next t => some t.part
  | _ => none

/-- "a steer and its return" (chapter 1): the Empty slot takes the Steer although N1 and C1 wait. -/
theorem test_the_urgent_queue_leaves_first :
    (after .emptySlotFill (machine waiting)).map (fun p => (p.ring.slot.kind, p.ring.slot.packet.dst, p.ring.normal.length)) =
      some (0x41, 40, 2) := by decide +kernel

/-- "a steer and its return": the undelivered Steer is stripped and counted, and its slot is Empty. -/
theorem test_an_undelivered_steer_is_stripped_and_counted :
    (after (.steerUndelivered (returned 310 (b16 1207 ++ b8 7))) atHall).map (fun p => (p.ring.slot, p.counter 2)) =
      some (emptyFrame, 1) := by decide +kernel

/-- "irregular ticks" (chapter 1), where the hall time is 1001 and timers P and A hold 3 and 38. -/
def irregular : State :=
  machine { withCall (fun c => { c with answer := .running 38 })
      { hall with notices := [(1, { queue := [someNotice], timer := .running 3, state := .pacing })] } with
    hall := ⟨1001, true⟩ }

/-- Tick 1030 is a step of 16: P expires and A holds 22. -/
theorem test_a_gap_steps_sixteen :
    (after (.tick (frame 1023 800 (b32 1030))) irregular).map (fun p =>
      (p.hall.time, (p.noticeQueue 1).timer, (p.call 4).answer)) = some (1030, .expired, .running 22) := by decide +kernel

/-- Tick 999 is ignored and counted as a tick fault. -/
theorem test_a_falling_tick_is_a_fault :
    (after (.tick (frame 1023 800 (b32 999))) irregular).map (fun p => (p.hall.time, (p.call 4).answer, p.counter 8)) =
      some (1001, .running 38, 1) := by decide +kernel

/-- The bands of "A Peak-Day Run": 311 has 402 to 498, 915 has 705 to 895, with floor allowance 20. -/
theorem test_weight_bands :
    (let jam : Article := { valid := true, nominal := 450, tolerance := 4 }
     inBand jam 20 402 && inBand jam 20 498 && !inBand jam 20 401 && !inBand jam 20 499) = true ∧
    (let cheese : Article := { valid := true, nominal := 800, tolerance := 6 }
     inBand cheese 20 705 && inBand cheese 20 895 && !inBand cheese 20 704 && !inBand cheese 20 896) = true := by decide

/-- "A calendar of six entries" (chapter 7): a free selection in a zone of credit 2 spends one and stays at the zone. -/
theorem test_free_selection_spends_a_credit :
    (after (.pitch (frame 1023 8 [])) (machine { callWaiting 1 with cal := ⟨1, [2, 1, 0, 1], .ambient⟩ })).map (fun p =>
      (p.cal, (p.call 9).state, (p.lane 7).busy)) = some (⟨0, [1, 1, 0, 1], .ambient⟩, .sent, some 9) := by decide +kernel

/-- The same in a zone of credit 1: the credit reaches 0 and the zone pointer moves on. -/
theorem test_the_last_credit_moves_the_zone_pointer :
    (after (.pitch (frame 1023 8 [])) (machine { callWaiting 1 with cal := ⟨1, [1, 1, 0, 0], .ambient⟩ })).map (fun p =>
      (p.cal.credits, p.cal.zone)) = some ([0, 1, 0, 0], .chilled) := by decide +kernel

/-- "A busy destination" (chapter 10): the seventeenth notice is lost and the lost count becomes 1. -/
theorem test_a_full_destination_loses_a_notice :
    (after (.tick (frame 1023 800 (b32 100))) (noticesWaiting 16 .pacing)).map (fun p =>
      ((p.noticeQueue 1).queue.length, (p.noticeQueue 1).lost)) = some (16, 1) := by decide +kernel

/-- "A Peak-Day Run": three records splice in list order onto the free list, and the carriers become FREE. -/
theorem test_cleared_splices_the_hold_list :
    (after (.cleared (report 6 0 3)) (machine (inState .clearing))).map (fun p =>
      (p.pool.free, (p.carrier 114).state, (p.build 3).state, (p.order? 77).map (fun o => o.state))) =
      some ([12, 13, 14, 20, 21], .free, .idle, some .done) := by decide +kernel

/-- R88: both counters rise, no record is taken, and one RETURN names the carrier alone. -/
theorem test_an_unrecorded_arrival_is_counted_twice_and_sent_out :
    (after (.arrived (report 1 105 0)) fullSpur).map (fun p =>
      (p.counter Counter.foreignArrivals.index, p.counter Counter.foreignUnrecorded.index, (p.build 3).hold,
        p.ring.normal, (p.carrier 105).state)) =
      some (1, 1, [12, 13, 14], [⟨.bayCommand, 41, returnPayload [105]⟩], .reject) := by decide +kernel

/-- R173: a carrier EN_ROUTE to the bay takes the head of the free list. -/
theorem test_a_late_carrier_takes_a_free_record :
    (after (.arrived (report 1 100 0)) atHall).map (fun p => ((p.build 3).hold, (p.holdRec 20).carrier, p.pool.free)) =
      some ([12, 13, 14, 20], 100, [21]) := by decide +kernel

/-- R148 and R149: with no credit left the credits are reloaded, and of two equal calls the lower lane's is sent. -/
theorem test_a_reload_and_a_tie :
    (after (.pitch (frame 1023 8 [])) (machine (offering [0, 0, 0, 0] [2, 0, 0, 0]))).map (fun p =>
      ((p.call 9).state, (p.call 11).state, p.cal.credits, p.cal.zone)) =
      some (.sent, .queued, [1, 0, 0, 0], .ambient) := by decide +kernel

/-- R68 and R91: at the chill retry limit the order is FAILED and the build drains. -/
theorem test_a_chill_failure_fails_the_order :
    (after (.chillExpiry 3) (chilled 1)).map (fun p => ((p.order? 77).map (fun o => o.state), (p.build 3).state)) =
      some (some .failed, .draining) := by decide +kernel

/-- R37, Table 2-2: lane 7 is ONLINE, not EMPTY, with one miss, busy, its queue empty. -/
theorem test_a_read_shows_a_lane :
    (after (.tableRead (request 0x02 (b8 3 ++ b16 7))) atHall).map (fun p =>
      p.ring.normal.map (fun x => (x.payload.drop 3).take 14)) =
      some [[3, 0, 7, 0, 20, 0, 3, 1, 1, 0, 1, 1, 0, 0]] := by decide +kernel

/-- MODE 9: BAD_VALUE is status 5, echoed with code 0x40 and tag 5 to node 700. -/
theorem test_a_bad_mode_is_refused :
    (after (.mode (request 0x40 (b8 9))) atHall).map (fun p => (p.ring.normal, p.mode)) =
      some ([⟨.adminReply, 700, [0x40, 5, 5] ++ zeros 21⟩], .paused) := by decide +kernel

/-! ### For every statement with hypotheses, a state and operands that meet them -/

/-- Met: the hypotheses of StepTakesTheFrontCommand, clause by clause. -/
theorem witness_StepTakesTheFrontCommand :
    commanded.pending = [.emptySlotFill, .normalEntryLeft] ∧ atHall.pending = [] := ⟨rfl, rfl⟩

/-- Met: the hypotheses of EveryStepKeepsTheBounds, in the hall with two commands waiting. -/
theorem witness_EveryStepKeepsTheBounds :
    commanded.part.Bounded ∧ step commanded = .next ⟨[.normalEntryLeft], hall⟩ := by
  refine ⟨⟨by decide, by decide, fun i => ?_, by decide, by decide, fun d => ?_⟩, rfl⟩
  · change Map.get 0 [] i ≤ 65535
    simp [Map.get, Map.find?]
  · change (Map.get {} [] d : NoticeQueue).queue.length ≤ 16 ∧ (Map.get {} [] d : NoticeQueue).lost ≤ 255
    simp [Map.get, Map.find?]

/-- Met: the hypotheses of SettingsChangeOnlyAtTheirCommands. -/
theorem witness_SettingsChangeOnlyAtTheirCommands :
    commanded.pending = .emptySlotFill :: [.normalEntryLeft] ∧ step commanded = .next ⟨[.normalEntryLeft], hall⟩ ∧
      setsStraps .emptySlotFill = false ∧ setsTables .emptySlotFill = false ∧ setsMode .emptySlotFill = false ∧
      setsHallTime .emptySlotFill = false := ⟨rfl, rfl, rfl, rfl, rfl, rfl⟩

/-- Met: the hypotheses of TheHallTimeNeverFalls. -/
theorem witness_TheHallTimeNeverFalls :
    commanded.pending = .emptySlotFill :: [.normalEntryLeft] ∧ (∀ e, Instr.emptySlotFill ≠ .powerOnReset e) ∧
      commanded.part.hall.valid = true ∧ step commanded = .next ⟨[.normalEntryLeft], hall⟩ :=
  ⟨rfl, fun _ h => (by cases h), rfl, rfl⟩

/-- Met: the hypotheses of DamagedFramesBecomeEmpty's second clause. -/
theorem witness_DamagedFramesBecomeEmpty_filled :
    damaged.sound = false ∧ (machine waiting).part.listening = true ∧
      (machine waiting).part.ring.urgent = [someSteer] ∧
      exec (.damagedFrame damaged) (machine waiting) =
        .next (machine ((waiting.putSlot emptyFrame).count .damaged)) :=
  ⟨by decide +kernel, rfl, rfl, rfl⟩

/-- Met: the hypotheses of OwnFramesAreStrippedOrReposted in its other cases. -/
theorem witness_OwnFramesAreStrippedOrReposted_counted :
    (let pkt := returned 41 (returnPayload [112]);
      (machine returning).part.ownReturned pkt ∧ (machine returning).part.bayOfNode pkt.dst.toNat = some 3 ∧
        pkt.u8 6 = 2 ∧ ∃ c ∈ returnIds pkt.payload, (machine returning).part.isReturning 3 c = true) ∧
    (let pkt := returned 41 (releasePayload 3);
      atHall.part.ownReturned pkt ∧ atHall.part.bayOfNode pkt.dst.toNat = some 3 ∧ pkt.u8 6 = 3 ∧
        (atHall.part.build 3).state ≠ .clearing) ∧
    (let pkt := returned 41 (stepPayload (stepTag 0 2) 9 77);
      atHall.part.ownReturned pkt ∧ atHall.part.bayOfNode pkt.dst.toNat = some 3 ∧ pkt.u8 6 = 1 ∧
        atHall.part.stepAwaited 3 (pkt.u16 7) = false)  := by
  and_intros <;> decide +kernel

/-- Met: the hypotheses of RequestsRefusedBeforeTheirOwnPart at a manager table, and of a code outside Table 1-3. -/
theorem witness_RequestsRefusedBeforeTheirOwnPart_others :
    (let pkt := request 0x41 [];
      (Instr.restart pkt).wf = true ∧ received (.restart pkt) = some (.adminRequest, pkt) ∧ managed.part.receives pkt ∧
        managed.part.ring.normal.length < 48 ∧ (managed.part.manager 1 ≠ 0 ∨ managed.part.manager 2 ≠ 0) ∧
        (managed.part.manager 1 = 0 ∨ managed.part.manager 1 ≠ pkt.src.toNat) ∧
        (managed.part.manager 2 = 0 ∨ managed.part.manager 2 ≠ pkt.src.toNat)) ∧
    (let pkt := request 0x03 [];
      (∀ c : RequestCode, pkt.byte 6 ≠ c.code) ∧ atHall.part.receives pkt ∧ atHall.part.ring.normal.length < 48 ∧
        atHall.part.admits pkt.src.toNat = true) :=
  ⟨by decide +kernel, fun c => by cases c <;> decide +kernel, by decide +kernel, by decide +kernel, by decide +kernel⟩

/-- Met: the hypotheses of TableWritesAreCheckedAndShown's IN_USE clause: a lane ONLINE, a bay in service, a style in use
and a word of its finish list. -/
theorem witness_TableWritesAreCheckedAndShown_inUse :
    (let pkt := request 0x01 (b8 3 ++ b16 7);
      atHall.part.receivesRequest .tableWrite pkt ∧ pkt.u8 8 = 3 ∧ pkt.u16 9 = 7 ∧ (atHall.part.lane 7).online = true) ∧
    (let pkt := request 0x01 (b8 5 ++ b16 3);
      atHall.part.receivesRequest .tableWrite pkt ∧ pkt.u8 8 = 5 ∧ pkt.u16 9 = 3 ∧
        (atHall.part.build 3).state ≠ .outOfService) ∧
    (let pkt := request 0x01 (b8 10 ++ b16 2);
      styleInUse.part.receivesRequest .tableWrite pkt ∧ pkt.u8 8 = 10 ∧ pkt.u16 9 = 2 ∧
        styleInUse.part.useCount 2 ≠ 0) ∧
    (let pkt := request 0x01 (b8 11 ++ b16 1);
      styleInUse.part.receivesRequest .tableWrite pkt ∧ pkt.u8 8 = 11 ∧ pkt.u16 9 = 1 ∧
        0 < styleInUse.part.useCount 2 ∧ styleInUse.part.inFinishList 2 (4 * pkt.u16 9 + 0) = true)  := by
  and_intros <;> decide +kernel

/-- Met: the hypothesis of ABayReceivesTheMostUrgentFittingOrder, with and without an order that fits. -/
theorem witness_ABayReceivesTheMostUrgentFittingOrder :
    (Map.rising waitingBook.book.orders = true ∧ waitingBook.chosenOrder 3 = some 77) ∧
      Map.rising hall.book.orders = true ∧ hall.chosenOrder 3 = none := by decide +kernel

/-- Met: the hypotheses of PitchesSendACall at a calendar entry that names a lane, with the normal queue open and full. -/
theorem witness_PitchesSendACall_named :
    let p := callWaiting 0;
    (machine p).part.hears (frame 1023 8 []) ∧ p.mode = .run ∧ p.const 9 = 2 ∧ p.calendarEntry 0 = 7 ∧
      (p.call 4).state = .sent ∧ (p.call 9).state = .queued ∧ (p.lane 7).online = true ∧ (p.lane 7).busy = none ∧
      (p.build 3).holdFlag = false ∧ (p.call 9).bay = 3 ∧ (p.lane 7).queue = [4] ++ 9 :: [] ∧
      p.ring.normal.length < 48 ∧ ¬ (fullQueue p).ring.normal.length < 48 ∧ (fullQueue p).mode = .run ∧
      (fullQueue p).calls = p.calls := by decide +kernel

/-- A store reads as its default where it lists nothing. -/
theorem get_unlisted {α : Type} (d : α) (m : Map α) (k : Nat) (h : k ∉ m.map Prod.fst) : Map.get d m k = d := by
  induction m with
  | nil => rfl
  | cons e rest ih =>
    obtain ⟨j, v⟩ := e
    simp only [List.map_cons, List.mem_cons, not_or] at h
    rw [Map.get, Map.find?_cons, if_neg (Ne.symm h.1)]
    exact ih h.2

/-- Where lanes 7, 8 and 9 have candidates, no other lane has one. -/
theorem offering_only (credits weights : List Nat) (a x : Nat) (h : x ∈ ((offering credits weights).lane a).queue)
    (q : ((offering credits weights).call x).state = .queued) : (a, x) ∈ [(7, 9), (9, 11), (8, 5)] := by
  have listed : a ∈ [7, 8, 9] := by
    by_contra n
    have e : (offering credits weights).lane a = {} := get_unlisted _ _ _ n
    simp [e] at h
  simp only [List.mem_cons, List.not_mem_nil, or_false] at listed
  rcases listed with rfl | rfl | rfl
  · have e : x ∈ [4, 9] := h
    simp only [List.mem_cons, List.not_mem_nil, or_false] at e
    rcases e with rfl | rfl
    · exact absurd (show CallState.sent = .queued from q) (by decide)
    · decide
  · have e : x ∈ [5] := h
    simp only [List.mem_singleton] at e
    subst e
    decide
  · have e : x ∈ [11] := h
    simp only [List.mem_singleton] at e
    subst e
    decide

/-- Met: the hypotheses of PitchesSendACall in free selection. With credit in AMBIENT alone, AMBIENT is found last in the
cyclic order and calls 9 and 11 tie on key and sequence number; with no credit, the weights find CHILLED first; with weights
of 0, no zone is found. -/
theorem witness_PitchesSendACall_free :
    (∀ credits weights, let p := offering credits weights
      (machine p).part.hears (frame 1023 8 []) ∧ p.mode = .run ∧ p.const 9 = 2 ∧ p.calendarEntry 1 = 0 ∧
        (p.laneDir 7).zone = .ambient ∧ (p.laneDir 9).zone = .ambient ∧ (p.laneDir 8).zone = .chilled ∧
        (∀ l, l = 7 ∨ l = 8 ∨ l = 9 → (p.lane l).online = true ∧ (p.lane l).busy = none) ∧
        (∀ r, r = 9 ∨ r = 11 ∨ r = 5 → (p.call r).state = .queued ∧ (p.call r).bay = 3) ∧
        (p.lane 7).queue = [4] ++ 9 :: [] ∧ (p.lane 8).queue = [] ++ 5 :: [] ∧ (p.lane 9).queue = [] ++ 11 :: [] ∧
        (p.build 3).holdFlag = false ∧ p.orderAt 3 = some boundOrder ∧ moreUrgent boundOrder boundOrder = false ∧
        (p.call 9).seq = (p.call 11).seq) ∧
      (offering [1, 0, 0, 0] [1, 1, 1, 1]).cal.credits.getD 0 0 = 1 ∧
      [Zone.chilled, .fragile, .bottle, .ambient] = [Zone.chilled, .fragile, .bottle] ++ .ambient :: [] ∧
      (∀ k, (offering [0, 0, 0, 0] [0, 1, 0, 0]).cal.credits.getD k 0 = 0) ∧
      (offering [0, 0, 0, 0] [0, 1, 0, 0]).tables.weights.getD 1 0 = 1 ∧
      ∀ k, (offering [0, 0, 0, 0] [0, 0, 0, 0]).tables.weights.getD k 0 = 0 := by
  have zeros : ∀ k, [0, 0, 0, 0].getD k 0 = 0 := fun k => by
    match k with
    | 0 => rfl
    | 1 => rfl
    | 2 => rfl
    | 3 => rfl
    | _ + 4 => rfl
  refine ⟨fun credits weights => ?_, rfl, rfl, zeros, rfl, zeros⟩
  have hears : (machine (callWaiting 1)).part.hears (frame 1023 8 []) := by decide
  refine ⟨hears, rfl, rfl, rfl, rfl, rfl, rfl, ?_, ?_, rfl, rfl, rfl, rfl, rfl, by decide, rfl⟩
  · rintro l (rfl | rfl | rfl) <;> exact ⟨rfl, rfl⟩
  · rintro r (rfl | rfl | rfl) <;> exact ⟨rfl, rfl⟩

/-- Met: the hypotheses of PitchesSendACall where no lane offers. -/
theorem witness_PitchesSendACall_idle :
    (machine runHall).part.hears (frame 1023 8 []) ∧ runHall.mode = .run ∧
      ∀ a x, x ∈ (runHall.lane a).queue → ¬ (runHall.call x).state = .queued := by
  refine ⟨by decide, rfl, fun a x hx => ?_⟩
  have e : (runHall.lane a).queue = [] := by
    change (Map.get {} smallCalls.lanes a).queue = []
    by_cases h7 : a = 7
    · subst h7; rfl
    · by_cases h8 : a = 8
      · subst h8; rfl
      · simp [smallCalls, Map.get, Map.find?, Ne.symm h7, Ne.symm h8]
  simp [e] at hx

/-- Met: the hypotheses of SteersThatEndReleaseTheirRecords where no STEERED carrier matches. -/
theorem witness_SteersThatEndReleaseTheirRecords_unmatched :
    (let pkt := returned 40 (steerPayload 100 3);
      atHall.part.ownReturned pkt ∧
        ∀ i r x, (atHall.part.carrier (pkt.u16 6)).state ≠ .steered (pkt.u8 8) i r x) ∧
    (atHall.part.ring.resetHeld = false ∧ ∀ b i r, (atHall.part.carrier 100).state ≠ .steered b i r .expired) := by
  have e : ∀ c, c = 100 → (atHall.part.carrier c).state = .enRoute 3 0 := by
    rintro c rfl
    decide
  exact ⟨⟨by decide +kernel, fun i r x => by rw [e _ (by decide +kernel)]; exact fun h => nomatch h⟩, rfl,
    fun b i r => by rw [e _ rfl]; exact fun h => nomatch h⟩

/-- Met: the hypotheses of SightingsOfRejectAndRestingCarriers at a HELD and a RETURNING carrier. -/
theorem witness_SightingsOfRejectAndRestingCarriers_resting :
    (let pkt := sighting 5 112 11 65535;
      atHall.part.hears pkt ∧ atHall.part.mode ≠ .config ∧ 1 ≤ pkt.u16 7 ∧ pkt.u16 7 ≤ 4095 ∧
        (atHall.part.carrier (pkt.u16 7)).state = .held 3 12 (.line 1)) ∧
    (let pkt := sighting 5 112 11 65535;
      returning.mode ≠ .config ∧ (returning.carrier (pkt.u16 7)).state = .returning 3 12 (.line 1))  := by
  and_intros <;> decide +kernel

/-- Met: the hypotheses of UnmatchedReportsAreCounted at a carrier that rests, one that is not RETURNING for the bay, and
each way a step tag is stale. -/
theorem witness_UnmatchedReportsAreCounted_others :
    (let pkt := report 1 112 0;
      atHall.part.receivesReport .arrived pkt 3 ∧ (atHall.part.carrier (pkt.u16 7)).state = .held 3 12 (.line 1)) ∧
    (let pkt := report 2 112 0;
      atHall.part.receivesReport .departed pkt 3 ∧ (atHall.part.carrier (pkt.u16 7)).state = .held 3 12 (.line 1)) ∧
    (let pkt := report 3 (stepTag 0 3) 0;
      (walking 0).part.receivesReport .stepDone pkt 3 ∧ pkt.u16 7 / 4096 ≠ ((walking 0).part.build 3).epoch) ∧
    (let pkt := report 3 (stepTag 1 2) 0;
      (walking 0).part.receivesReport .stepDone pkt 3 ∧ pkt.u16 7 % 2048 ≠ ((walking 0).part.build 3).pointer)  := by
  and_intros <;> decide +kernel

/-- Met: the hypotheses of WalksGoOnFromTheirPointer for accepted finish requests, and for a pointer outside the list. -/
theorem witness_WalksGoOnFromTheirPointer_listed :
    (let pkt := request 0x26 (b8 3);
      (stoppedAt 1).part.receivesRequest .finishSkip pkt ∧ ((stoppedAt 1).part.build 3).state = .finishStopped ∧
        (stoppedAt 1).part.styleStart ((stoppedAt 1).part.styleAt 3) = 0 ∧
        ((stoppedAt 1).part.build 3).pointer = 1 ∧ (stoppedAt 1).part.step 0 ≠ .finish) ∧
    (let pkt := request 0x25 (b8 3);
      (stoppedAt 2048).part.receivesRequest .finishResume pkt ∧
        ((stoppedAt 2048).part.build 3).state = .finishStopped ∧ ((stoppedAt 2048).part.build 3).pointer = 2048)  := by
  and_intros <;> decide +kernel

/-- Met: the hypotheses of WalksStopWithTheirCause for a refused step that is not CONTINUE. -/
theorem witness_WalksStopWithTheirCause_refused :
    let pkt := report 4 (stepTag 1 2) 0;
    let y := (walking 1).part.build 3;
    y.state = .finishing ∧ y.stepTimer ≠ .stopped ∧ pkt.u16 7 / 4096 = y.epoch ∧ pkt.u16 7 % 2048 = y.pointer ∧
      pkt.u16 7 / 2048 % 2 = 0 ∧ (walking 1).part.receivesReport .stepRefused pkt 3 ∧
      ∀ code parameter, (walking 1).part.step y.pointer ≠ .action true code parameter := by
  have e : (walking 1).part.step ((walking 1).part.build 3).pointer = .action false 8 66 := by decide +kernel
  refine ⟨?_, ?_, ?_, ?_, ?_, ?_, fun code parameter h => by rw [e] at h; cases h⟩ <;> decide +kernel

/-- Met: the hypotheses of ChillExpiriesReturnTheChilledRecords on both sides of the chill retry limit. -/
theorem witness_ChillExpiriesReturnTheChilledRecords_limit :
    (((chilled 1).part.build 3).dwell = .expired ∧ ((chilled 1).part.build 3).state = .gathering ∧
      ((chilled 1).part.build 3).hold.Nodup ∧ (chilled 1).part.const 6 ≤ min 15 (1 + 1)) ∧
    (((chilled 0).part.build 3).dwell = .expired ∧ ((chilled 0).part.build 3).state = .gathering ∧
      ((chilled 0).part.build 3).hold.Nodup ∧ min 15 (0 + 1) < (chilled 0).part.const 6) := by decide +kernel

/-- Met: the hypotheses of FramesSpellTheirBytesAndAreSound, clause by clause. -/
theorem witness_FramesSpellTheirBytesAndAreSound_sound :
    (damaged.packet.payload.length = 24) ∧
    (let f := Packet.seal 49 (returned 20 []); f.sound = true ∧ f.packet.taken = false) ∧
    (damaged.sound = false)  := by
  and_intros <;> decide +kernel

/-- Met: the hypotheses of FramesSpellTheirBytesAndAreSound, clause by clause. -/
theorem witness_FramesSpellTheirBytesAndAreSound_bytes :
    (damaged.packet.payload.length = 24) ∧
    ((List.replicate 32 7).length = 32)  := by
  and_intros <;> decide +kernel

/-- Met: the hypotheses of SlotsSpellTheirCommands. -/
theorem witness_SlotsSpellTheirCommands :
    let pkt := returned 20 []; let f := Packet.seal 49 (returned 20 []); (Instr.callUndelivered pkt).wf = true ∧
      Instr.reaches 1 (Instr.callUndelivered pkt) = true ∧ (Instr.callUndelivered pkt).slot = some f := by decide +kernel

/-- Met: the hypotheses of InertPartsOnlyForward. -/
theorem witness_InertPartsOnlyForward_reset :
    resetLow.part.ring.resetHeld = true ∧ (Instr.damagedFrame damaged).wf = true ∧ (Instr.damagedFrame damaged).slot =
      some damaged := by decide +kernel

/-- Met: the hypotheses of InertPartsOnlyForward, clause by clause. -/
theorem witness_InertPartsOnlyForward_forwarder :
    (let s := forwarder 1023; s.part.ring.resetHeld = false ∧ (s.part.ring.straps = 0 ∨ s.part.ring.straps = 1023) ∧
      (Instr.damagedFrame damaged).wf = true ∧ (Instr.damagedFrame damaged).slot = some damaged) ∧
    (let s := forwarder 0; s.part.ring.resetHeld = false ∧ (s.part.ring.straps = 0 ∨ s.part.ring.straps = 1023))  := by
  and_intros <;> decide +kernel

/-- Met: the hypotheses of DamagedFramesBecomeEmpty. -/
theorem witness_DamagedFramesBecomeEmpty :
    damaged.sound = false ∧ atHall.part.ring.resetHeld = false := by decide +kernel

/-- Met: the hypotheses of EmptySlotsAreFilledAndOthersForwarded, clause by clause. -/
theorem witness_EmptySlotsAreFilledAndOthersForwarded_empty :
    (let s := machine waiting; s.part.listening = true ∧ s.part.ring.slot.kind = 0 ∧ s.part.ring.urgent = [someSteer]) ∧
    (let s := machine waitingNormal; s.part.listening = true ∧ s.part.ring.slot.kind = 0 ∧ s.part.ring.urgent = [] ∧
      s.part.ring.normal = [someCall, somePost]) ∧
    (atHall.part.listening = true ∧ atHall.part.ring.slot.kind = 0 ∧ atHall.part.ring.urgent = [] ∧
      atHall.part.ring.normal = []) ∧
    (let s := machine (Part.putSlot damaged waiting); s.part.listening = true ∧ s.part.ring.slot.kind ≠ 0)  := by
  and_intros <;> decide +kernel

/-- Met: the hypotheses of EmptySlotsAreFilledAndOthersForwarded. -/
theorem witness_EmptySlotsAreFilledAndOthersForwarded_others :
    let f := Packet.seal 49 (frame 1 7 [1]); atHall.part.listening = true ∧ f.sound = true ∧ Frame.passing
      atHall.part.node f = true := by decide +kernel

/-- Met: the hypotheses of FramesNotHandedOnReachNoBlock, clause by clause. -/
theorem witness_FramesNotHandedOnReachNoBlock_untaken :
    (let pkt := frame 2 9 []; atHall.part.listening = true ∧ (Instr.answer pkt).wf = true ∧ received (Instr.answer
      pkt) = some (Kind.answer, pkt) ∧ (isBroadcast Kind.answer = true → pkt.dst ≠ 1023) ∧ (pkt.dst ≠ atHall.part.node
      ∨ pkt.taken = true)) ∧
    (let pkt := frame 1 9 []; atHall.part.receives pkt ∧ received (Instr.tick pkt) = some (Kind.tick, pkt) ∧
      isBroadcast Kind.tick = true) ∧
    (let pkt := frame 1 9 []; atHall.part.receives pkt ∧ answerChecks pkt = false)  := by
  and_intros <;> decide +kernel

/-- Met: the hypotheses of FramesNotHandedOnReachNoBlock, clause by clause. -/
theorem witness_FramesNotHandedOnReachNoBlock_modes :
    (let pkt := answer 4 1 1 []; (Instr.answer pkt).wf = true ∧ received (Instr.answer pkt) = some (Kind.answer, pkt)
      ∧ configHall.part.mode = Mode.config ∧ configHall.part.receives pkt ∧ (Kind.answer = Kind.bayReport ∨
      Kind.answer = Kind.answer ∧ answerChecks pkt = true)) ∧
    (let pkt := report 1 1 1; (Instr.arrived pkt).wf = true ∧ received (Instr.arrived pkt) = some (Kind.bayReport,
      pkt) ∧ configHall.part.mode = Mode.config ∧ configHall.part.receives pkt ∧ (Kind.bayReport = Kind.bayReport ∨
      Kind.bayReport = Kind.answer ∧ answerChecks pkt = true)) ∧
    (let pkt := sighting 5 100 10 1; configHall.part.hears pkt ∧ configHall.part.mode = Mode.config) ∧
    (let pkt := frame 1023 8 []; atHall.part.hears pkt ∧ atHall.part.mode ≠ Mode.run)  := by
  and_intros <;> decide +kernel

/-- Met: the hypotheses of OwnFramesAreStrippedOrReposted. -/
theorem witness_OwnFramesAreStrippedOrReposted_delivered :
    atHall.part.listening = true ∧ takenFrame.src = atHall.part.node ∧ (takenFrame.dst = 1023 ∨ takenFrame.taken =
      true) := by decide +kernel

/-- Met: the hypotheses of UndeliveredNoticesAndRepliesAreDropped. -/
theorem witness_UndeliveredNoticesAndRepliesAreDropped :
    let pkt := returned 50 []; atHall.part.ownReturned pkt := by decide +kernel

/-- Met: the hypotheses of OwnFramesAreStrippedOrReposted, clause by clause. -/
theorem witness_OwnFramesAreStrippedOrReposted_reposted :
    (let s := machine (inState BuildState.clearing); let pkt := returned 41 (releasePayload 3); s.part.ownReturned pkt
      ∧ s.part.bayOfNode (BitVec.toNat pkt.dst) = some 3 ∧ ((pkt.u8 6 = 2 ∧ ∃ c ∈ returnIds pkt.payload,
      s.part.isReturning 3 c = true) ∨ pkt.u8 6 = 3 ∧ (s.part.build 3).state = BuildState.clearing)) ∧
    (let s := machine returning; let pkt := returned 41 (returnPayload [114, 113]); s.part.ownReturned pkt ∧
      s.part.bayOfNode (BitVec.toNat pkt.dst) = some 3 ∧ ((pkt.u8 6 = 2 ∧ ∀ c ∈ returnIds pkt.payload,
      s.part.isReturning 3 c = false) ∨ pkt.u8 6 = 3 ∧ (s.part.build 3).state ≠ BuildState.clearing ∨ pkt.u8 6 = 1 ∧
      s.part.stepAwaited 3 (pkt.u16 7) = false))  := by
  and_intros <;> decide +kernel

/-- Met: the hypotheses of RequestsRefusedBeforeTheirOwnPart. -/
theorem witness_RequestsRefusedBeforeTheirOwnPart :
    let pkt := request 0x40 (b8 1); (Instr.mode pkt).wf = true ∧ received (Instr.mode pkt) = some (Kind.adminRequest,
      pkt) ∧ fullHall.part.receives pkt ∧ (¬fullHall.part.ring.normal.length < 48) := by decide +kernel

/-- Met: the hypotheses of CountersReadReturnsTheCounters, clause by clause. -/
theorem witness_CountersReadReturnsTheCounters :
    (let pkt := request 0x42 (b8 18); atHall.part.receivesRequest RequestCode.countersRead pkt ∧ pkt.u8 8 ≤ 24) ∧
    (let pkt := request 0x42 (b8 25); atHall.part.receivesRequest RequestCode.countersRead pkt ∧ 24 < pkt.u8 8)  := by
  and_intros <;> decide +kernel

/-- Met: the hypotheses of ReadsReplyAndChangeNothing, clause by clause. -/
theorem witness_ReadsReplyAndChangeNothing_tables :
    (let pkt := request 0x02 (b8 15); atHall.part.receivesRequest .tableRead pkt ∧ (pkt.u8 8 = 0 ∨ 14 < pkt.u8 8)) ∧
    (∀ k, k < 14 → let r := indexRanges.getD k (0, 0)
      (∀ i, i = r.1 ∨ i = r.2 → let pkt := request 0x02 (b8 (k + 1) ++ b16 i)
        atHall.part.receivesRequest .tableRead pkt ∧ pkt.u8 8 = k + 1 ∧ pkt.u16 9 = i ∧ indexRanges[k]? = some r ∧
          r.1 ≤ i ∧ i ≤ r.2) ∧
      let pkt := request 0x02 (b8 (k + 1) ++ b16 (r.2 + 1))
      atHall.part.receivesRequest .tableRead pkt ∧ pkt.u8 8 = k + 1 ∧ r.2 < pkt.u16 9) := by
  refine ⟨by decide +kernel, ?_⟩
  intro k hk
  interval_cases k <;> refine ⟨?_, by decide +kernel⟩ <;> rintro i (rfl | rfl) <;> decide +kernel

/-- Met: the hypotheses of ReadsReplyAndChangeNothing, clause by clause. -/
theorem witness_ReadsReplyAndChangeNothing_orders :
    (let pkt := request 0x14 (b32 78 ++ b8 255); atHall.part.receivesRequest RequestCode.orderRead pkt ∧
      atHall.part.order? (pkt.u32 8) = none) ∧
    (let pkt := request 0x14 (b32 77 ++ b8 255); atHall.part.receivesRequest RequestCode.orderRead pkt ∧
      atHall.part.order? (pkt.u32 8) = some boundOrder ∧ pkt.u8 12 = 255) ∧
    (let pkt := request 0x14 (b32 77 ++ b8 2); atHall.part.receivesRequest RequestCode.orderRead pkt ∧
      atHall.part.order? (pkt.u32 8) = some boundOrder ∧ pkt.u8 12 ≠ 255 ∧ (15 < pkt.u8 12 ∨ boundOrder.declared ≤
      pkt.u8 12 ∨ Map.find? boundOrder.lines (pkt.u8 12) = none)) ∧
    (let pkt := request 0x14 (b32 77 ++ b8 1); atHall.part.receivesRequest RequestCode.orderRead pkt ∧
      atHall.part.order? (pkt.u32 8) = some boundOrder ∧ pkt.u8 12 ≤ 15 ∧ pkt.u8 12 < boundOrder.declared ∧ Map.find?
      boundOrder.lines (pkt.u8 12) = some persistLine)  := by
  and_intros <;> decide +kernel

/-- Met: the hypotheses of ReadsReplyAndChangeNothing, clause by clause. -/
theorem witness_ReadsReplyAndChangeNothing_builds :
    (let pkt := request 0x20 (b8 3 ++ b8 3); atHall.part.receivesRequest RequestCode.buildRead pkt ∧ (64 < pkt.u8 8 ∨
      pkt.u8 8 = 0 ∧ pkt.u8 9 ≠ 255 ∨ pkt.u8 9 < 254 ∧ (31 < pkt.u8 9 ∨ (atHall.part.build (pkt.u8 8)).hold.length ≤
      pkt.u8 9))) ∧
    (let pkt := request 0x20 (b8 0 ++ b8 255); atHall.part.receivesRequest RequestCode.buildRead pkt ∧ pkt.u8 8 = 0 ∧
      pkt.u8 9 = 255) ∧
    (let pkt := request 0x20 (b8 3 ++ b8 255); atHall.part.receivesRequest RequestCode.buildRead pkt ∧ 1 ≤ pkt.u8 8 ∧
      pkt.u8 8 ≤ 64 ∧ pkt.u8 9 = 255) ∧
    (let pkt := request 0x20 (b8 3 ++ b8 254); atHall.part.receivesRequest RequestCode.buildRead pkt ∧ 1 ≤ pkt.u8 8 ∧
      pkt.u8 8 ≤ 64 ∧ pkt.u8 9 = 254) ∧
    (let pkt := request 0x20 (b8 3 ++ b8 2); atHall.part.receivesRequest RequestCode.buildRead pkt ∧ 1 ≤ pkt.u8 8 ∧
      pkt.u8 8 ≤ 64 ∧ pkt.u8 9 ≤ 31 ∧ pkt.u8 9 < (atHall.part.build (pkt.u8 8)).hold.length)  := by
  and_intros <;> decide +kernel

/-- Met: the hypotheses of ModeRequestsChangeTheMode, clause by clause. -/
theorem witness_ModeRequestsChangeTheMode :
    (let pkt := request 0x40 (b8 3); atHall.part.receivesRequest RequestCode.mode pkt ∧ 2 < pkt.u8 8) ∧
    (let pkt := request 0x40 (b8 2); atHall.part.receivesRequest RequestCode.mode pkt ∧ Mode.ofCode (pkt.u8 8) = some
      atHall.part.mode) ∧
    (let s := machine runHall; let pkt := request 0x40 (b8 2); s.part.receivesRequest RequestCode.mode pkt ∧ pkt.u8 8
      = 2 ∧ s.part.mode ≠ Mode.paused)  := by
  and_intros <;> decide +kernel

/-- Met: the hypotheses of RestartResetsTheBlocks. -/
theorem witness_RestartResetsTheBlocks :
    let pkt := request 0x41 []; atHall.part.receivesRequest RequestCode.restart pkt := by decide +kernel

/-- Met: the hypotheses of TableWritesAreCheckedAndShown, clause by clause. -/
theorem witness_TableWritesAreCheckedAndShown_refused :
    (let pkt := request 0x01 (b8 15 ++ b16 7); atHall.part.receivesRequest RequestCode.tableWrite pkt ∧ (pkt.u8 8 = 0
      ∨ 14 < pkt.u8 8)) ∧
    (let pkt := request 0x01 (b8 8 ++ b16 512); atHall.part.receivesRequest RequestCode.tableWrite pkt ∧
      pkt.u8 8 ≠ 0 ∧ indexRanges[pkt.u8 8 - 1]? = some (0, 31) ∧ (pkt.u16 9 < 0 ∨ 31 < pkt.u16 9)) ∧
    (let pkt := request 0x01 (b8 1 ++ b16 0); atHall.part.receivesRequest RequestCode.tableWrite pkt ∧ pkt.u8 8 = 1 ∧
      pkt.u16 9 = 0) ∧
    (let pkt := request 0x01 (b8 1 ++ b16 8191); atHall.part.receivesRequest RequestCode.tableWrite pkt ∧ (pkt.u8 8 =
      1 ∧ 1 ≤ pkt.u16 9 ∧ pkt.u16 9 ≤ 8191 ∨ pkt.u8 8 = 2 ∧ 1 ≤ pkt.u16 9 ∧ pkt.u16 9 ≤ 127 ∨ pkt.u8 8 = 4 ∧ 1 ≤
      pkt.u16 9 ∧ pkt.u16 9 ≤ 255 ∨ pkt.u8 8 = 7 ∧ pkt.u16 9 ≤ 3) ∧ atHall.part.mode ≠ Mode.config)  := by
  and_intros <;> decide +kernel

/-- Met: the hypotheses of SchedulingAndFinishTablesStoreTheirEntries, clause by clause. -/
theorem witness_SchedulingAndFinishTablesStoreTheirEntries_consts :
    (let pkt := request 0x01 (b8 6 ++ b16 9 ++ b16 600); atHall.part.receivesRequest RequestCode.tableWrite pkt ∧
      pkt.u8 8 = 6 ∧ [(1, 255), (1, 65535), (1, 255), (1, 255), (1, 255), (1, 65535), (1, 15), (1, 15), (0, 255), (0,
      512)][pkt.u16 9]? = some (0, 512)) ∧
    (let pkt := request 0x01 (b8 6 ++ b16 0 ++ b16 0); atHall.part.receivesRequest RequestCode.tableWrite pkt ∧ pkt.u8
      8 = 6 ∧ [(1, 255), (1, 65535), (1, 255), (1, 255), (1, 255), (1, 65535), (1, 15), (1, 15), (0, 255), (0,
      512)][pkt.u16 9]? = some (1, 255))  := by
  and_intros <;> decide +kernel

/-- Met: the hypotheses of TableWritesAreCheckedAndShown. -/
theorem witness_TableWritesAreCheckedAndShown_accepted :
    let pkt := request 0x01 (b8 6 ++ b16 9 ++ b16 600); (tableWrite pkt hall).status = Status.ok := by decide +kernel

/-- Met: the hypotheses of OrderRequestsLoadAnOrder, clause by clause. -/
theorem witness_OrderRequestsLoadAnOrder_head :
    (let pkt := request 0x10 (b32 78 ++ b8 4 ++ b32 9 ++ b8 63 ++ b16 499 ++ b8 16 ++ b8 1);
      atHall.part.receivesRequest RequestCode.orderHead pkt ∧ (¬(pkt.u32 8 ≠ 0 ∧ pkt.u8 12 ≤ 3 ∧ pkt.u8 17 ≤ 63 ∧ 1 ≤
      pkt.u8 20 ∧ pkt.u8 20 ≤ 16 ∧ pkt.u8 21 ≤ 1))) ∧
    (let pkt := request 0x10 (b32 78 ++ b8 3 ++ b32 9 ++ b8 63 ++ b16 499 ++ b8 16 ++ b8 1);
      fullBook.part.receivesRequest RequestCode.orderHead pkt ∧ (pkt.u32 8 ≠ 0 ∧ pkt.u8 12 ≤ 3 ∧ pkt.u8 17 ≤ 63 ∧ 1 ≤
      pkt.u8 20 ∧ pkt.u8 20 ≤ 16 ∧ pkt.u8 21 ≤ 1) ∧ 1024 ≤ List.length fullBook.part.book.orders) ∧
    (let pkt := request 0x10 (b32 77 ++ b8 3 ++ b32 9 ++ b8 63 ++ b16 499 ++ b8 16 ++ b8 1);
      atHall.part.receivesRequest RequestCode.orderHead pkt ∧ (pkt.u32 8 ≠ 0 ∧ pkt.u8 12 ≤ 3 ∧ pkt.u8 17 ≤ 63 ∧ 1 ≤
      pkt.u8 20 ∧ pkt.u8 20 ≤ 16 ∧ pkt.u8 21 ≤ 1) ∧ List.length atHall.part.book.orders < 1024 ∧ (atHall.part.order?
      (pkt.u32 8)).isSome = true) ∧
    (let pkt := request 0x10 (b32 78 ++ b8 3 ++ b32 9 ++ b8 63 ++ b16 499 ++ b8 16 ++ b8 1);
      atHall.part.receivesRequest RequestCode.orderHead pkt ∧ (pkt.u32 8 ≠ 0 ∧ pkt.u8 12 ≤ 3 ∧ pkt.u8 17 ≤ 63 ∧ 1 ≤
      pkt.u8 20 ∧ pkt.u8 20 ≤ 16 ∧ pkt.u8 21 ≤ 1) ∧ List.length atHall.part.book.orders < 1024 ∧ atHall.part.order?
      (pkt.u32 8) = none)  := by
  and_intros <;> decide +kernel

/-- Met: the hypotheses of OrderRequestsLoadAnOrder, clause by clause. -/
theorem witness_OrderRequestsLoadAnOrder_line :
    (let pkt := request 0x11 (b32 79 ++ b8 1 ++ b16 11 ++ b8 20 ++ b8 2); atHall.part.receivesRequest
      RequestCode.orderLine pkt ∧ atHall.part.order? (pkt.u32 8) = none) ∧
    (let pkt := request 0x11 (b32 77 ++ b8 1 ++ b16 11 ++ b8 20 ++ b8 2); atHall.part.receivesRequest
      RequestCode.orderLine pkt ∧ atHall.part.order? (pkt.u32 8) = some boundOrder ∧ boundOrder.state ≠
      OrderState.draft) ∧
    (let pkt := request 0x11 (b32 77 ++ b8 2 ++ b16 11 ++ b8 20 ++ b8 2); twoOrders.part.receivesRequest
      RequestCode.orderLine pkt ∧ twoOrders.part.order? (pkt.u32 8) = some draft ∧ draft.state = OrderState.draft ∧
      draft.declared ≤ pkt.u8 12) ∧
    (let pkt := request 0x11 (b32 77 ++ b8 1 ++ b16 12 ++ b8 20 ++ b8 2); twoOrders.part.receivesRequest
      RequestCode.orderLine pkt ∧ twoOrders.part.order? (pkt.u32 8) = some draft ∧ draft.state = OrderState.draft ∧
      pkt.u8 12 < draft.declared ∧ (¬(pkt.u16 13 ≠ 0 ∧ pkt.u16 13 ≤ 8191 ∧ (twoOrders.part.article (pkt.u16 13)).valid
      = true ∧ pkt.u8 15 ≠ 0 ∧ pkt.u8 16 ≤ 2))) ∧
    (let pkt := request 0x11 (b32 77 ++ b8 0 ++ b16 11 ++ b8 20 ++ b8 2); twoOrders.part.receivesRequest
      RequestCode.orderLine pkt ∧ twoOrders.part.order? (pkt.u32 8) = some draft ∧ draft.state = OrderState.draft ∧
      pkt.u8 12 < draft.declared ∧ (pkt.u16 13 ≠ 0 ∧ pkt.u16 13 ≤ 8191 ∧ (twoOrders.part.article (pkt.u16 13)).valid =
      true ∧ pkt.u8 15 ≠ 0 ∧ pkt.u8 16 ≤ 2) ∧ (Map.find? draft.lines (pkt.u8 12)).isSome = true) ∧
    (let pkt := request 0x11 (b32 77 ++ b8 1 ++ b16 11 ++ b8 20 ++ b8 2); twoOrders.part.receivesRequest
      RequestCode.orderLine pkt ∧ twoOrders.part.order? (pkt.u32 8) = some draft ∧ draft.state = OrderState.draft ∧
      pkt.u8 12 < draft.declared ∧ (pkt.u16 13 ≠ 0 ∧ pkt.u16 13 ≤ 8191 ∧ (twoOrders.part.article (pkt.u16 13)).valid =
      true ∧ pkt.u8 15 ≠ 0 ∧ pkt.u8 16 ≤ 2) ∧ Map.find? draft.lines (pkt.u8 12) = none ∧ LineMode.ofCode (pkt.u8 16) = some LineMode.substitute)  := by
  and_intros <;> decide +kernel

/-- Met: the hypotheses of OrderCancelEndsAnOrder, clause by clause. -/
theorem witness_OrderCancelEndsAnOrder :
    (let pkt := request 0x12 (b32 78); atHall.part.receivesRequest RequestCode.orderCancel pkt ∧ atHall.part.order?
      (pkt.u32 8) = none) ∧
    (let pkt := request 0x12 (b32 70); twoOrders.part.receivesRequest RequestCode.orderCancel pkt ∧
      twoOrders.part.order? (pkt.u32 8) = some finished ∧ (finished.state = OrderState.done ∨ finished.state =
      OrderState.doneShort ∨ finished.state = OrderState.cancelled ∨ finished.state = OrderState.failed)) ∧
    (let s := machine (inState BuildState.clearing); let pkt := request 0x12 (b32 77); s.part.receivesRequest
      RequestCode.orderCancel pkt ∧ s.part.order? (pkt.u32 8) = some boundOrder ∧ boundOrder.state = OrderState.bound
      3 ∧ (s.part.build 3).state = BuildState.clearing) ∧
    (let pkt := request 0x12 (b32 77); twoOrders.part.receivesRequest RequestCode.orderCancel pkt ∧
      twoOrders.part.order? (pkt.u32 8) = some draft ∧ (draft.state = OrderState.draft ∨ draft.state =
      OrderState.waiting))  := by
  and_intros <;> decide +kernel

/-- Met: the hypotheses of OrderPurgeRemovesTerminalRecords, clause by clause. -/
theorem witness_OrderPurgeRemovesTerminalRecords :
    (let pkt := request 0x13 (b32 71); twoOrders.part.receivesRequest RequestCode.orderPurge pkt ∧ pkt.u32 8 ≠ 0 ∧
      twoOrders.part.order? (pkt.u32 8) = none) ∧
    (let pkt := request 0x13 (b32 77); twoOrders.part.receivesRequest RequestCode.orderPurge pkt ∧ pkt.u32 8 ≠ 0 ∧
      twoOrders.part.order? (pkt.u32 8) = some draft ∧ draft.state = OrderState.draft) ∧
    (let pkt := request 0x13 (b32 70); twoOrders.part.receivesRequest RequestCode.orderPurge pkt ∧ pkt.u32 8 ≠ 0 ∧
      twoOrders.part.order? (pkt.u32 8) = some finished ∧ (finished.state = OrderState.done ∨ finished.state =
      OrderState.doneShort ∨ finished.state = OrderState.cancelled ∨ finished.state = OrderState.failed)) ∧
    (let pkt := request 0x13 (b32 0); twoOrders.part.receivesRequest RequestCode.orderPurge pkt ∧ pkt.u32 8 = 0)  := by
  and_intros <;> decide +kernel

/-- Met: the hypotheses of UrgencyIsAStrictOrder. -/
theorem witness_UrgencyIsAStrictOrder :
    moreUrgent sooner boundOrder = true ∧ moreUrgent boundOrder later = true := by decide +kernel

/-- Met: the hypotheses of TicksAdvanceEveryTimer, clause by clause. -/
theorem witness_TicksAdvanceEveryTimer :
    (let pkt := frame 1023 800 (b32 0); unticked.part.hears pkt ∧ (unticked.part.hall.valid = false ∧ 1 = 1 ∨
      unticked.part.hall.valid = true ∧ BitVec.toNat unticked.part.hall.time < pkt.u32 6 ∧ 1 = min 16 (pkt.u32 6 -
      BitVec.toNat unticked.part.hall.time))) ∧
    (let pkt := frame 1023 800 (b32 117); atHall.part.hears pkt ∧ (atHall.part.hall.valid = false ∧ 16 = 1 ∨
      atHall.part.hall.valid = true ∧ BitVec.toNat atHall.part.hall.time < pkt.u32 6 ∧ 16 = min 16 (pkt.u32 6 -
      BitVec.toNat atHall.part.hall.time)))  := by
  and_intros <;> decide +kernel

/-- Met: the hypotheses of NoticesAreQueuedAndPosted, clause by clause. -/
theorem witness_NoticesAreQueuedAndPosted_tickFault :
    (let pkt := frame 1023 800 (b32 100); unrouted.part.hears pkt ∧ unrouted.part.hall.valid = true ∧ pkt.u32 6 ≤
      BitVec.toNat unrouted.part.hall.time ∧ (unrouted.part.routing NoticeKind.tickFault).dest = 0) ∧
    (let s := noticesWaiting 16 PostingState.pacing; let pkt := frame 1023 800 (b32 100); s.part.hears pkt ∧
      s.part.hall.valid = true ∧ pkt.u32 6 ≤ BitVec.toNat s.part.hall.time ∧ (s.part.routing
      NoticeKind.tickFault).dest ≠ 0 ∧ 16 ≤ (s.part.noticeQueue (s.part.routing
      NoticeKind.tickFault).dest).queue.length) ∧
    (let s := noticesWaiting 15 PostingState.pacing; let pkt := frame 1023 800 (b32 100); s.part.hears pkt ∧
      s.part.hall.valid = true ∧ pkt.u32 6 ≤ BitVec.toNat s.part.hall.time ∧ (s.part.routing
      NoticeKind.tickFault).dest ≠ 0 ∧ (s.part.noticeQueue (s.part.routing NoticeKind.tickFault).dest).queue.length <
      16 ∧ (s.part.noticeQueue (s.part.routing NoticeKind.tickFault).dest).state ≠ PostingState.idle) ∧
    (let s := machine (idleDest 0 10); let pkt := frame 1023 800 (b32 100); s.part.hears pkt ∧ s.part.hall.valid =
      true ∧ pkt.u32 6 ≤ BitVec.toNat s.part.hall.time ∧ (s.part.routing NoticeKind.tickFault).dest ≠ 0 ∧
      (s.part.noticeQueue (s.part.routing NoticeKind.tickFault).dest).queue = [] ∧ (s.part.noticeQueue (s.part.routing
      NoticeKind.tickFault).dest).state = PostingState.idle ∧ (s.part.destination (s.part.routing
      NoticeKind.tickFault).dest).node = 0) ∧
    (let s := machine (fullQueue (idleDest 50 10)); let pkt := frame 1023 800 (b32 100); s.part.hears pkt ∧
      s.part.hall.valid = true ∧ pkt.u32 6 ≤ BitVec.toNat s.part.hall.time ∧ (s.part.routing
      NoticeKind.tickFault).dest ≠ 0 ∧ (s.part.noticeQueue (s.part.routing NoticeKind.tickFault).dest).queue = [] ∧
      (s.part.noticeQueue (s.part.routing NoticeKind.tickFault).dest).state = PostingState.idle ∧ (s.part.destination
      (s.part.routing NoticeKind.tickFault).dest).node ≠ 0 ∧ 48 ≤ s.part.ring.normal.length) ∧
    (let s := machine (idleDest 50 1); let pkt := frame 1023 800 (b32 100); s.part.hears pkt ∧ s.part.hall.valid =
      true ∧ pkt.u32 6 ≤ BitVec.toNat s.part.hall.time ∧ (s.part.routing NoticeKind.tickFault).dest ≠ 0 ∧
      (s.part.noticeQueue (s.part.routing NoticeKind.tickFault).dest).queue = [] ∧ (s.part.noticeQueue (s.part.routing
      NoticeKind.tickFault).dest).state = PostingState.idle ∧ (s.part.destination (s.part.routing
      NoticeKind.tickFault).dest).node ≠ 0 ∧ s.part.ring.normal.length < 48 ∧ 0 < (s.part.destination (s.part.routing
      NoticeKind.tickFault).dest).pacing) ∧
    (let s := machine (idleDest 50 0); let pkt := frame 1023 800 (b32 100); s.part.hears pkt ∧ s.part.hall.valid =
      true ∧ pkt.u32 6 ≤ BitVec.toNat s.part.hall.time ∧ (s.part.routing NoticeKind.tickFault).dest ≠ 0 ∧
      (s.part.noticeQueue (s.part.routing NoticeKind.tickFault).dest).queue = [] ∧ (s.part.noticeQueue (s.part.routing
      NoticeKind.tickFault).dest).state = PostingState.idle ∧ (s.part.destination (s.part.routing
      NoticeKind.tickFault).dest).node ≠ 0 ∧ s.part.ring.normal.length < 48 ∧ (s.part.destination (s.part.routing
      NoticeKind.tickFault).dest).pacing = 0)  := by
  and_intros <;> decide +kernel

/-- Met: the hypotheses of NoticesAreQueuedAndPosted, clause by clause. -/
theorem witness_NoticesAreQueuedAndPosted_pacing :
    (atHall.part.ring.resetHeld = false ∧ ((atHall.part.noticeQueue 1).timer ≠ Timer.expired ∨
      (atHall.part.noticeQueue 1).state ≠ PostingState.pacing)) ∧
    (let s := machine (paced [] 50 10); s.part.ring.resetHeld = false ∧ (s.part.noticeQueue 1).timer = Timer.expired ∧
      (s.part.noticeQueue 1).state = PostingState.pacing ∧ (s.part.noticeQueue 1).queue = []) ∧
    (let s := machine (paced [someNotice] 0 10); s.part.ring.resetHeld = false ∧ (s.part.noticeQueue 1).timer =
      Timer.expired ∧ (s.part.noticeQueue 1).state = PostingState.pacing ∧ (s.part.noticeQueue 1).queue = [someNotice]
      ∧ (s.part.destination 1).node = 0) ∧
    (let s := machine (fullQueue (paced [someNotice] 50 10)); s.part.ring.resetHeld = false ∧ (s.part.noticeQueue
      1).timer = Timer.expired ∧ (s.part.noticeQueue 1).state = PostingState.pacing ∧ (s.part.noticeQueue 1).queue =
      [someNotice] ∧ (s.part.destination 1).node ≠ 0 ∧ 48 ≤ s.part.ring.normal.length) ∧
    (let s := machine (paced [someNotice] 50 10); s.part.ring.resetHeld = false ∧ (s.part.noticeQueue 1).timer =
      Timer.expired ∧ (s.part.noticeQueue 1).state = PostingState.pacing ∧ (s.part.noticeQueue 1).queue = [someNotice]
      ∧ (s.part.destination 1).node ≠ 0 ∧ s.part.ring.normal.length < 48 ∧ 0 < (s.part.destination 1).pacing) ∧
    (let s := machine (paced [someNotice] 50 0); s.part.ring.resetHeld = false ∧ (s.part.noticeQueue 1).timer =
      Timer.expired ∧ (s.part.noticeQueue 1).state = PostingState.pacing ∧ (s.part.noticeQueue 1).queue = [someNotice]
      ∧ (s.part.destination 1).node ≠ 0 ∧ s.part.ring.normal.length < 48 ∧ (s.part.destination 1).pacing = 0)  := by
  and_intros <;> decide +kernel

/-- Met: the hypotheses of CallTimersAndLostCalls, clause by clause. -/
theorem witness_CallTimersAndLostCalls_lost :
    (let pkt := returned 20 (b16 (callTag 4 6)); atHall.part.ownReturned pkt ∧ (atHall.part.call (tagIndex (pkt.u16
      6))).state = CallState.sent ∧ (atHall.part.call (tagIndex (pkt.u16 6))).generation = tagHigh (pkt.u16 6)) ∧
    (let pkt := returned 20 (b16 (callTag 4 7)); atHall.part.ownReturned pkt ∧ ((atHall.part.call (tagIndex (pkt.u16
      6))).state ≠ CallState.sent ∨ (atHall.part.call (tagIndex (pkt.u16 6))).generation ≠ tagHigh (pkt.u16 6))) ∧
    (atHall.part.ring.resetHeld = false ∧ (atHall.part.call 4).answer ≠ Timer.expired) ∧
    (let s := answerDue CallState.sent; s.part.ring.resetHeld = false ∧ (s.part.call 4).answer = Timer.expired ∧
      (s.part.call 4).state = CallState.sent) ∧
    (let s := answerDue CallState.orphan; s.part.ring.resetHeld = false ∧ (s.part.call 4).answer = Timer.expired ∧
      (s.part.call 4).state = CallState.orphan ∧ (s.part.lane (s.part.call 4).lane).busy = some 4 ∧ 4 ∉ (s.part.lane
      (s.part.call 4).lane).queue)  := by
  and_intros <;> decide +kernel

/-- Met: the hypotheses of CallTimersAndLostCalls, clause by clause. -/
theorem witness_CallTimersAndLostCalls_timers :
    (retryDue.part.ring.resetHeld = false ∧ (retryDue.part.call 4).retry = Timer.expired ∧ (retryDue.part.call
      4).state = CallState.deferred) ∧
    (atHall.part.ring.resetHeld = false ∧ (atHall.part.call 4).retry ≠ Timer.expired) ∧
    (atHall.part.ring.resetHeld = false ∧ (atHall.part.call 4).persist ≠ Timer.expired) ∧
    (persistSent.part.ring.resetHeld = false ∧ (persistSent.part.call 4).persist = Timer.expired ∧
      (persistSent.part.call 4).state = CallState.sent) ∧
    (persistDue.part.ring.resetHeld = false ∧ (persistDue.part.call 4).persist = Timer.expired ∧
      ((persistDue.part.call 4).state = CallState.queued ∨ (persistDue.part.call 4).state = CallState.deferred) ∧ 0 <
      (persistDue.part.call 4).count ∧ (persistDue.part.build (persistDue.part.call 4).bay).state =
      BuildState.gathering ∧ persistDue.part.lineAt (persistDue.part.call 4).bay (persistDue.part.call 4).line = some
      homeLine ∧ (persistDue.part.lane (persistDue.part.call 4).lane).busy ≠ some 4)  := by
  and_intros <;> decide +kernel

/-- Met: the hypotheses of SteersThatEndReleaseTheirRecords, clause by clause. -/
theorem witness_SteersThatEndReleaseTheirRecords :
    (let s := steered (Timer.running 5) BuildState.gathering; let pkt := returned 40 (steerPayload 101 3);
      s.part.ownReturned pkt ∧ (s.part.carrier (pkt.u16 6)).state = CarrierState.steered 3 0 20 (Timer.running 5) ∧ 3
      = pkt.u8 8 ∧ ((s.part.build 3).state = BuildState.gathering ∨ (s.part.build 3).state = BuildState.draining)) ∧
    (let s := steered Timer.expired BuildState.draining; s.part.ring.resetHeld = false ∧ (s.part.carrier 101).state =
      CarrierState.steered 3 0 20 Timer.expired ∧ ((s.part.build 3).state = BuildState.gathering ∨ (s.part.build
      3).state = BuildState.draining))  := by
  and_intros <;> decide +kernel

/-- Met: the hypotheses of SightingsOfRejectAndRestingCarriers, clause by clause. -/
theorem witness_SightingsOfRejectAndRestingCarriers :
    (let pkt := sighting 5 105 0 65535; atHall.part.hears pkt ∧ atHall.part.mode ≠ Mode.config ∧ 1 ≤ pkt.u16 7 ∧
      pkt.u16 7 ≤ 4095 ∧ (atHall.part.carrier (pkt.u16 7)).state = CarrierState.reject ∧ pkt.u16 10 = 0) ∧
    (let pkt := sighting 5 105 10 65535; atHall.part.hears pkt ∧ atHall.part.mode ≠ Mode.config ∧ 1 ≤ pkt.u16 7 ∧
      pkt.u16 7 ≤ 4095 ∧ (atHall.part.carrier (pkt.u16 7)).state = CarrierState.reject ∧ pkt.u16 10 ≠ 0) ∧
    (let pkt := sighting 5 4096 10 65535; atHall.part.hears pkt ∧ atHall.part.mode ≠ Mode.config ∧ (pkt.u16 7 = 0 ∨
      4095 < pkt.u16 7))  := by
  and_intros <;> decide +kernel

/-- Met: the hypotheses of ArrivalsFillAHoldRecord, clause by clause. -/
theorem witness_ArrivalsFillAHoldRecord :
    (let s := steered (Timer.running 5) BuildState.gathering; let pkt := report 1 101 0; s.part.receivesReport
      ReportCode.arrived pkt 3 ∧ 1 ≤ pkt.u16 7 ∧ pkt.u16 7 ≤ 4095 ∧ (s.part.carrier (pkt.u16 7)).state =
      CarrierState.steered 3 0 20 (Timer.running 5) ∧ (s.part.build 3).state = BuildState.gathering) ∧
    (let pkt := report 1 101 0; steeredChilled.part.receivesReport ReportCode.arrived pkt 3 ∧ 1 ≤ pkt.u16 7 ∧ pkt.u16
      7 ≤ 4095 ∧ (steeredChilled.part.carrier (pkt.u16 7)).state = CarrierState.steered 3 1 20 (Timer.running 5) ∧
      (steeredChilled.part.build 3).state = BuildState.gathering) ∧
    (let s := steered (Timer.running 5) BuildState.draining; let pkt := report 1 101 0; s.part.receivesReport
      ReportCode.arrived pkt 3 ∧ 1 ≤ pkt.u16 7 ∧ pkt.u16 7 ≤ 4095 ∧ (s.part.carrier (pkt.u16 7)).state =
      CarrierState.steered 3 0 20 (Timer.running 5) ∧ (s.part.build 3).state = BuildState.draining) := by
  and_intros <;> decide +kernel

/-- Met: the hypotheses of ArrivalsFillAHoldRecord for a carrier EN_ROUTE to the reporting bay: a record free, the spur full,
the pool empty with the arming flag set and clear. -/
theorem witness_ArrivalsFillAHoldRecord_enRoute :
    ∀ s, s = atHall ∨ s = fullSpur ∨ s = poolDry true ∨ s = poolDry false →
      let pkt := report 1 100 0
      s.part.receivesReport .arrived pkt 3 ∧ 1 ≤ pkt.u16 7 ∧ pkt.u16 7 ≤ 4095 ∧
        (s.part.carrier (pkt.u16 7)).state = .enRoute 3 0 ∧ (s.part.bayDir 3).spur = 4 ∧
        (s.part.build 3).hold.length = 3 ∧ (s.part.build 3).reserved = (if s = fullSpur then 1 else 0) ∧
        s.part.pool.free = (if s = poolDry true ∨ s = poolDry false then [] else [20, 21]) ∧
        s.part.pool.armed = decide (s ≠ poolDry false) := by
  rintro s (rfl | rfl | rfl | rfl) <;> decide +kernel

/-- Met: the hypotheses of ArrivalsFillAHoldRecord for a carrier of another bay, and for a REJECT one. -/
theorem witness_ArrivalsFillAHoldRecord_foreign :
    (∀ x, x = CarrierState.enRoute 4 0 ∨ x = .steered 4 0 22 (.running 5) →
      ∀ y, y = BuildState.gathering ∨ y = .draining →
        let s := ofBayFour x y
        let pkt := report 1 100 0
        s.part.receivesReport .arrived pkt 3 ∧ 1 ≤ pkt.u16 7 ∧ pkt.u16 7 ≤ 4095 ∧
          (s.part.carrier (pkt.u16 7)).state = x ∧ (s.part.build 4).state = y) ∧
    let pkt := report 1 105 0
    atHall.part.receivesReport .arrived pkt 3 ∧ 1 ≤ pkt.u16 7 ∧ pkt.u16 7 ≤ 4095 ∧
      (atHall.part.carrier (pkt.u16 7)).state = .reject := by
  refine ⟨?_, by decide +kernel⟩
  rintro x (rfl | rfl) y (rfl | rfl) <;> decide +kernel

/-- Met: the hypotheses of DeparturesFreeTheRecord, clause by clause. -/
theorem witness_DeparturesFreeTheRecord :
    (let s := machine returning; let pkt := report 2 112 0; s.part.receivesReport ReportCode.departed pkt 3 ∧ 1 ≤
      pkt.u16 7 ∧ pkt.u16 7 ≤ 4095 ∧ (s.part.carrier (pkt.u16 7)).state = CarrierState.returning 3 12
      (CarrierRole.line 1)) ∧
    (let pkt := report 2 112 0; foreignReturning.part.receivesReport ReportCode.departed pkt 3 ∧ 1 ≤ pkt.u16 7 ∧
      pkt.u16 7 ≤ 4095 ∧ (foreignReturning.part.carrier (pkt.u16 7)).state = CarrierState.returning 3 12
      (CarrierRole.foreign Prior.reject))  := by
  and_intros <;> decide +kernel

/-- Met: the hypotheses of UnmatchedReportsAreCounted. -/
theorem witness_UnmatchedReportsAreCounted_cleared :
    let s := machine (inState BuildState.draining); let pkt := report 6 0 3; s.part.receivesReport ReportCode.cleared
      pkt 3 ∧ (s.part.build 3).state ≠ BuildState.clearing := by decide +kernel

/-- Met: the hypotheses of UnmatchedReportsAreCounted, clause by clause. -/
theorem witness_UnmatchedReportsAreCounted :
    (let pkt := frame 1 99 (b8 7); (Instr.blocked pkt).wf = true ∧ received (Instr.blocked pkt) = some
      (Kind.bayReport, pkt) ∧ atHall.part.mode ≠ Mode.config ∧ atHall.part.receives pkt ∧ atHall.part.reportBay
      (BitVec.toNat pkt.src) = none) ∧
    (let pkt := report 1 4096 0; atHall.part.receivesReport ReportCode.arrived pkt 3 ∧ 4095 < pkt.u16 7) ∧
    (let pkt := report 2 0 0; atHall.part.receivesReport ReportCode.departed pkt 3 ∧ pkt.u16 7 = 0) ∧
    (let pkt := report 3 (stepTag 0 2) 0; atHall.part.receivesReport ReportCode.stepDone pkt 3 ∧ ((atHall.part.build
      3).state ≠ BuildState.finishing ∨ (atHall.part.build 3).stepTimer = Timer.stopped ∨ pkt.u16 7 / 4096 ≠
      (atHall.part.build 3).epoch ∨ pkt.u16 7 % 2048 ≠ (atHall.part.build 3).pointer ∨ pkt.u16 7 / 2048 % 2 = 1)) ∧
    (let s := walking 0; let pkt := report 4 (stepTag 2048 2) 0; s.part.receivesReport ReportCode.stepRefused pkt 3 ∧
      ((s.part.build 3).state ≠ BuildState.finishing ∨ (s.part.build 3).stepTimer = Timer.stopped ∨ pkt.u16 7 / 4096 ≠
      (s.part.build 3).epoch ∨ pkt.u16 7 % 2048 ≠ (s.part.build 3).pointer ∨ pkt.u16 7 / 2048 % 2 = 1)) ∧
    (let s := walking 0; let pkt := report 5 (stepTag 1 2) 0; s.part.receivesReport ReportCode.stepFault pkt 3 ∧
      ((s.part.build 3).state ≠ BuildState.finishing ∨ (s.part.build 3).stepTimer = Timer.stopped ∨ pkt.u16 7 / 4096 ≠
      (s.part.build 3).epoch ∨ pkt.u16 7 % 2048 ≠ (s.part.build 3).pointer ∨ pkt.u16 7 / 2048 % 2 = 1))  := by
  and_intros <;> decide +kernel

/-- Met: the hypotheses of WalksGoOnFromTheirPointer, clause by clause. -/
theorem witness_WalksGoOnFromTheirPointer :
    (let s := walking 0; let pkt := report 3 (stepTag 0 2) 0; (s.part.build 3).state = BuildState.finishing ∧
      (s.part.build 3).stepTimer ≠ Timer.stopped ∧ pkt.u16 7 / 4096 = (s.part.build 3).epoch ∧ pkt.u16 7 % 2048 =
      (s.part.build 3).pointer ∧ pkt.u16 7 / 2048 % 2 = 0 ∧ s.part.receivesReport ReportCode.stepDone pkt 3) ∧
    (let s := walking 0; let pkt := report 4 (stepTag 0 2) 0; (s.part.build 3).state = BuildState.finishing ∧
      (s.part.build 3).stepTimer ≠ Timer.stopped ∧ pkt.u16 7 / 4096 = (s.part.build 3).epoch ∧ pkt.u16 7 % 2048 =
      (s.part.build 3).pointer ∧ pkt.u16 7 / 2048 % 2 = 0 ∧ s.part.receivesReport ReportCode.stepRefused pkt 3 ∧
      s.part.step (s.part.build 3).pointer = Step.action true 9 77) ∧
    (waited.part.ring.resetHeld = false ∧ (waited.part.build 3).state = BuildState.finishing ∧ (waited.part.build
      3).waitTimer = Timer.expired) ∧
    (overdue.part.ring.resetHeld = false ∧ (overdue.part.build 3).state = BuildState.finishing ∧ (overdue.part.build
      3).waitTimer ≠ Timer.expired)  := by
  and_intros <;> decide +kernel

/-- Met: the hypotheses of WalksGoOnFromTheirPointer, clause by clause. -/
theorem witness_WalksGoOnFromTheirPointer_requests :
    (let s := stoppedAt 1; let pkt := request 0x26 (b8 65); s.part.receivesRequest (if true = true then
      RequestCode.finishSkip else RequestCode.finishResume) pkt ∧ (pkt.u8 8 = 0 ∨ 64 < pkt.u8 8)) ∧
    (let pkt := request 0x26 (b8 3); atHall.part.receivesRequest (if true = true then RequestCode.finishSkip else
      RequestCode.finishResume) pkt ∧ 1 ≤ pkt.u8 8 ∧ pkt.u8 8 ≤ 64 ∧ ((atHall.part.build (pkt.u8 8)).state ≠
      BuildState.finishStopped ∨ ¬(atHall.part.styleStart (atHall.part.styleAt (pkt.u8 8)) ≤ (atHall.part.build
      (pkt.u8 8)).pointer ∧ (atHall.part.build (pkt.u8 8)).pointer < 2048 ∧ ∀ (j : ℕ), atHall.part.styleStart
      (atHall.part.styleAt (pkt.u8 8)) ≤ j → j < (atHall.part.build (pkt.u8 8)).pointer → atHall.part.step j ≠
      Step.finish)))  := by
  and_intros <;> decide +kernel

/-- Met: the hypotheses of WalksStopWithTheirCause, clause by clause. -/
theorem witness_WalksStopWithTheirCause :
    (let s := walking 1; let pkt := report 5 (stepTag 1 2) 0; (s.part.build 3).state = BuildState.finishing ∧
      (s.part.build 3).stepTimer ≠ Timer.stopped ∧ pkt.u16 7 / 4096 = (s.part.build 3).epoch ∧ pkt.u16 7 % 2048 =
      (s.part.build 3).pointer ∧ pkt.u16 7 / 2048 % 2 = 0 ∧ s.part.receivesReport ReportCode.stepFault pkt 3) ∧
    (let s := walking 1; let pkt := returned 41 (stepPayload (stepTag 1 2) 8 66); (s.part.build 3).state =
      BuildState.finishing ∧ (s.part.build 3).stepTimer ≠ Timer.stopped ∧ pkt.u16 7 / 4096 = (s.part.build 3).epoch ∧
      pkt.u16 7 % 2048 = (s.part.build 3).pointer ∧ s.part.ownReturned pkt ∧ s.part.bayOfNode (BitVec.toNat pkt.dst) =
      some 3 ∧ pkt.u8 6 = 1) ∧
    (overdue.part.ring.resetHeld = false ∧ (overdue.part.build 3).state = BuildState.finishing ∧ (overdue.part.build
      3).stepTimer = Timer.expired) ∧
    (let s := walking 1; s.part.ring.resetHeld = false ∧ (s.part.build 3).state = BuildState.finishing ∧ (s.part.build
      3).stepTimer ≠ Timer.expired)  := by
  and_intros <;> decide +kernel

/-- Met: the hypotheses of ClearingsEndTheBuild. -/
theorem witness_ClearingsEndTheBuild :
    let s := machine (inState BuildState.clearing); let pkt := report 6 0 3; s.part.receivesReport ReportCode.cleared
      pkt 3 ∧ (s.part.build 3).state = BuildState.clearing := by decide +kernel

/-- Met: the hypotheses of BayFlagsAndServiceAreSet, clause by clause. -/
theorem witness_BayFlagsAndServiceAreSet_flags :
    (let pkt := report 7 0 0; atHall.part.receivesReport ReportCode.blocked pkt 3) ∧
    (let pkt := report 8 0 0; atHall.part.receivesReport ReportCode.unblocked pkt 3) ∧
    (let pkt := request 0x22 (b8 0 ++ b8 1); atHall.part.receivesRequest RequestCode.bayHold pkt ∧ (pkt.u8 8 = 0 ∨ 64
      < pkt.u8 8)) ∧
    (let pkt := request 0x22 (b8 64 ++ b8 2); atHall.part.receivesRequest RequestCode.bayHold pkt ∧ 1 ≤ pkt.u8 8 ∧
      pkt.u8 8 ≤ 64 ∧ 1 < pkt.u8 9) ∧
    (let pkt := request 0x22 (b8 3 ++ b8 1); atHall.part.receivesRequest RequestCode.bayHold pkt ∧ 1 ≤ pkt.u8 8 ∧
      pkt.u8 8 ≤ 64 ∧ pkt.u8 9 ≤ 1)  := by
  and_intros <;> decide +kernel

/-- Met: the hypotheses of BayFlagsAndServiceAreSet, clause by clause. -/
theorem witness_BayFlagsAndServiceAreSet_service :
    (let pkt := request 0x21 (b8 65 ++ b8 1); atHall.part.receivesRequest RequestCode.bayService pkt ∧ (pkt.u8 8 = 0 ∨
      64 < pkt.u8 8)) ∧
    (let pkt := request 0x21 (b8 3 ++ b8 2); atHall.part.receivesRequest RequestCode.bayService pkt ∧ 1 ≤ pkt.u8 8 ∧
      pkt.u8 8 ≤ 64 ∧ 1 < pkt.u8 9) ∧
    (let pkt := request 0x21 (b8 4 ++ b8 1); atHall.part.receivesRequest RequestCode.bayService pkt ∧ 1 ≤ pkt.u8 8 ∧
      pkt.u8 8 ≤ 64 ∧ pkt.u8 9 = 1 ∧ (atHall.part.build (pkt.u8 8)).state = BuildState.outOfService ∧
      ((atHall.part.bayDir (pkt.u8 8)).diverter = 0 ∨ (atHall.part.bayDir (pkt.u8 8)).bayNode = 0 ∨
      (atHall.part.bayDir (pkt.u8 8)).arch = 0)) ∧
    (let s := emptyBay BuildState.outOfService; let pkt := request 0x21 (b8 3 ++ b8 1); s.part.receivesRequest
      RequestCode.bayService pkt ∧ 1 ≤ pkt.u8 8 ∧ pkt.u8 8 ≤ 64 ∧ pkt.u8 9 = 1 ∧ (s.part.build (pkt.u8 8)).state =
      BuildState.outOfService ∧ (s.part.bayDir (pkt.u8 8)).diverter ≠ 0 ∧ (s.part.bayDir (pkt.u8 8)).bayNode ≠ 0 ∧
      (s.part.bayDir (pkt.u8 8)).arch ≠ 0) ∧
    (let s := emptyBay BuildState.draining; let pkt := request 0x21 (b8 3 ++ b8 1); s.part.receivesRequest
      RequestCode.bayService pkt ∧ 1 ≤ pkt.u8 8 ∧ pkt.u8 8 ≤ 64 ∧ pkt.u8 9 = 1 ∧ (s.part.build (pkt.u8 8)).state =
      BuildState.draining) ∧
    (let pkt := request 0x21 (b8 3 ++ b8 1); atHall.part.receivesRequest RequestCode.bayService pkt ∧ 1 ≤ pkt.u8 8 ∧
      pkt.u8 8 ≤ 64 ∧ pkt.u8 9 = 1 ∧ (atHall.part.build (pkt.u8 8)).state ≠ BuildState.outOfService ∧
      (atHall.part.build (pkt.u8 8)).state ≠ BuildState.draining) ∧
    (let s := emptyBay BuildState.idle; let pkt := request 0x21 (b8 3 ++ b8 0); s.part.receivesRequest
      RequestCode.bayService pkt ∧ 1 ≤ pkt.u8 8 ∧ pkt.u8 8 ≤ 64 ∧ pkt.u8 9 = 0 ∧ (s.part.build (pkt.u8 8)).state =
      BuildState.idle ∧ (s.part.build (pkt.u8 8)).hold = []) ∧
    (let s := machine (inState BuildState.idle); let pkt := request 0x21 (b8 3 ++ b8 0); s.part.receivesRequest
      RequestCode.bayService pkt ∧ 1 ≤ pkt.u8 8 ∧ pkt.u8 8 ≤ 64 ∧ pkt.u8 9 = 0 ∧ (s.part.build (pkt.u8 8)).state =
      BuildState.idle ∧ (s.part.build (pkt.u8 8)).hold ≠ []) ∧
    (let s := emptyBay BuildState.outOfService; let pkt := request 0x21 (b8 3 ++ b8 0); s.part.receivesRequest
      RequestCode.bayService pkt ∧ 1 ≤ pkt.u8 8 ∧ pkt.u8 8 ≤ 64 ∧ pkt.u8 9 = 0 ∧ (s.part.build (pkt.u8 8)).state =
      BuildState.outOfService) ∧
    (let s := emptyBay BuildState.draining; let pkt := request 0x21 (b8 3 ++ b8 0); s.part.receivesRequest
      RequestCode.bayService pkt ∧ 1 ≤ pkt.u8 8 ∧ pkt.u8 8 ≤ 64 ∧ pkt.u8 9 = 0 ∧ (s.part.build (pkt.u8 8)).state =
      BuildState.draining) ∧
    (let pkt := request 0x21 (b8 3 ++ b8 0); atHall.part.receivesRequest RequestCode.bayService pkt ∧ 1 ≤ pkt.u8 8 ∧
      pkt.u8 8 ≤ 64 ∧ pkt.u8 9 = 0 ∧ (atHall.part.build (pkt.u8 8)).state ≠ BuildState.idle ∧ (atHall.part.build
      (pkt.u8 8)).state ≠ BuildState.outOfService ∧ (atHall.part.build (pkt.u8 8)).state ≠ BuildState.draining)  := by
  and_intros <;> decide +kernel

/-- Met: the hypotheses of ChillExpiriesReturnTheChilledRecords, clause by clause. -/
theorem witness_ChillExpiriesReturnTheChilledRecords :
    (atHall.part.ring.resetHeld = false ∧ (atHall.part.build 3).dwell ≠ Timer.expired) ∧
    (let s := chilled 0; s.part.ring.resetHeld = false ∧ (s.part.build 3).dwell = Timer.expired ∧ (s.part.build
      3).state = BuildState.gathering ∧ (s.part.build 3).hold.Nodup)  := by
  and_intros <;> decide +kernel

/-- Met: the hypotheses of AbortsHandOverTheWork, clause by clause. -/
theorem witness_AbortsHandOverTheWork :
    (let pkt := request 0x23 (b8 65 ++ b8 0); atHall.part.receivesRequest RequestCode.buildAbort pkt ∧ (pkt.u8 8 = 0 ∨
      64 < pkt.u8 8)) ∧
    (let pkt := request 0x23 (b8 3 ++ b8 2); atHall.part.receivesRequest RequestCode.buildAbort pkt ∧ 1 ≤ pkt.u8 8 ∧
      pkt.u8 8 ≤ 64 ∧ 1 < pkt.u8 9) ∧
    (let s := machine (inState BuildState.clearing); let pkt := request 0x23 (b8 3 ++ b8 1); s.part.receivesRequest
      RequestCode.buildAbort pkt ∧ 1 ≤ pkt.u8 8 ∧ pkt.u8 8 ≤ 64 ∧ pkt.u8 9 ≤ 1 ∧ (¬((s.part.build (pkt.u8 8)).state =
      BuildState.gathering ∨ (s.part.build (pkt.u8 8)).state = BuildState.shortHold ∨ (s.part.build (pkt.u8 8)).state
      = BuildState.finishing ∨ (s.part.build (pkt.u8 8)).state = BuildState.finishStopped))) ∧
    (let pkt := request 0x23 (b8 3 ++ b8 1); atHall.part.receivesRequest RequestCode.buildAbort pkt ∧ 1 ≤ pkt.u8 8 ∧
      pkt.u8 8 ≤ 64 ∧ pkt.u8 9 ≤ 1 ∧ ((atHall.part.build (pkt.u8 8)).state = BuildState.gathering ∨ (atHall.part.build
      (pkt.u8 8)).state = BuildState.shortHold ∨ (atHall.part.build (pkt.u8 8)).state = BuildState.finishing ∨
      (atHall.part.build (pkt.u8 8)).state = BuildState.finishStopped))  := by
  and_intros <;> decide +kernel

/-- Met: the hypotheses of ShortAcceptEndsAShortHold, clause by clause. -/
theorem witness_ShortAcceptEndsAShortHold :
    (let pkt := request 0x24 (b8 0); atHall.part.receivesRequest RequestCode.shortAccept pkt ∧ (pkt.u8 8 = 0 ∨ 64 <
      pkt.u8 8)) ∧
    (let pkt := request 0x24 (b8 3); atHall.part.receivesRequest RequestCode.shortAccept pkt ∧ 1 ≤ pkt.u8 8 ∧ pkt.u8 8
      ≤ 64 ∧ (atHall.part.build (pkt.u8 8)).state ≠ BuildState.shortHold) ∧
    (let s := shortHeld 0; let pkt := request 0x24 (b8 3); s.part.receivesRequest RequestCode.shortAccept pkt ∧ 1 ≤
      pkt.u8 8 ∧ pkt.u8 8 ≤ 64 ∧ (s.part.build (pkt.u8 8)).state = BuildState.shortHold) ∧
    (let s := shortHeld 2; let pkt := request 0x24 (b8 3); s.part.receivesRequest RequestCode.shortAccept pkt ∧ 1 ≤
      pkt.u8 8 ∧ pkt.u8 8 ≤ 64 ∧ (s.part.build (pkt.u8 8)).state = BuildState.shortHold)  := by
  and_intros <;> decide +kernel

/-- Met: the hypotheses of LaneStateSetsTheLane, clause by clause. -/
theorem witness_LaneStateSetsTheLane :
    (let pkt := request 0x30 (b8 0 ++ b8 1); atHall.part.receivesRequest RequestCode.laneState pkt ∧ pkt.u8 8 = 0) ∧
    (let pkt := request 0x30 (b8 7 ++ b8 3); atHall.part.receivesRequest RequestCode.laneState pkt ∧ pkt.u8 8 ≠ 0 ∧ 2
      < pkt.u8 9) ∧
    (let pkt := request 0x30 (b8 9 ++ b8 1); atHall.part.receivesRequest RequestCode.laneState pkt ∧ pkt.u8 8 ≠ 0 ∧
      pkt.u8 9 = 1 ∧ (atHall.part.laneDir (pkt.u8 8)).node = 0) ∧
    (let pkt := request 0x30 (b8 7 ++ b8 1); atHall.part.receivesRequest RequestCode.laneState pkt ∧ pkt.u8 8 ≠ 0 ∧
      pkt.u8 9 = 1 ∧ (atHall.part.laneDir (pkt.u8 8)).node ≠ 0) ∧
    (let pkt := request 0x30 (b8 7 ++ b8 2); atHall.part.receivesRequest RequestCode.laneState pkt ∧ pkt.u8 8 ≠ 0 ∧
      pkt.u8 9 = 2 ∧ (atHall.part.lane (pkt.u8 8)).stockOut = false) ∧
    (let pkt := request 0x30 (b8 8 ++ b8 2); emptyLane.part.receivesRequest RequestCode.laneState pkt ∧ pkt.u8 8 ≠ 0 ∧
      pkt.u8 9 = 2 ∧ (emptyLane.part.lane (pkt.u8 8)).stockOut = true) ∧
    (let pkt := request 0x30 (b8 9 ++ b8 0); atHall.part.receivesRequest RequestCode.laneState pkt ∧ pkt.u8 8 ≠ 0 ∧
      pkt.u8 9 = 0 ∧ (atHall.part.lane (pkt.u8 8)).online = false) ∧
    (let pkt := request 0x30 (b8 7 ++ b8 0); atHall.part.receivesRequest RequestCode.laneState pkt ∧ pkt.u8 8 ≠ 0 ∧
      pkt.u8 9 = 0 ∧ (atHall.part.lane (pkt.u8 8)).online = true)  := by
  and_intros <;> decide +kernel

/-- A part whose book is one order binds that order alone. -/
theorem orderAt_only {p : Part} {x : Order} (h : p.book.orders = [(77, x)]) {b : Nat} {o : Order}
    (ho : p.orderAt b = some o) : o = x := by
  rw [Part.orderAt, Part.order?, h, Map.find?_cons] at ho
  split at ho
  · exact (Option.some.inj ho).symm
  · cases ho

/-- In a part whose one listed build is bay 3's, no other gathers. -/
theorem gathering_only {p : Part} (h : p.builds.map Prod.fst = [3]) {b : Nat} (hs : (p.build b).state = .gathering) :
    b = 3 := by
  by_contra hb
  rw [Part.build, get_unlisted _ _ _ (by simpa [h] using hb)] at hs
  cases hs

/-- Met: the hypotheses of LeftEntriesLetHeldFramesPost's first clause, without a report and with two. -/
theorem witness_LeftEntriesLetHeldFramesPost :
    (atHall.part.ring.resetHeld = false ∧ atHall.part.ring.left = 0) ∧
      leftTwice.ring.resetHeld = false ∧ leftTwice.ring.left = 1 + 1 := by decide

/-- Met: the hypotheses of LeftEntriesLetHeldFramesPost's second clause, with the last entry taken by the list's last frame
and by a frame before another. -/
theorem witness_LeftEntriesLetHeldFramesPost_pending :
    (let p := pendingAt 47 [deadReturn, someRelease];
      (p.build 3).pending = [deadReturn, someRelease] ++ [] ∧ deadReturn.kind = .bayCommand ∧
        someRelease.kind = .bayCommand ∧ deadReturn.payload.headD 0 = 2 ∧
        (returnIds deadReturn.payload).any (fun c => p.isReturning 3 c) = false ∧ someRelease.payload.headD 0 ≠ 2 ∧
        p.ring.normal.length + 1 ≤ 48) ∧
    (let p := pendingAt 47 [someRelease, someStep];
      (p.build 3).pending = [someRelease] ++ someStep :: [] ∧ someStep.payload.headD 0 ≠ 2 ∧
        p.ring.normal.length + 1 = 48) := by
  and_intros <;> decide +kernel

/-- Met: the hypotheses of LeftEntriesLetHeldFramesPost at a held STEP and at a WAITING destination. -/
theorem witness_LeftEntriesLetHeldFramesPost_held :
    (hall.build 3).heldStep = none ∧
    ((leftWithStep.build 3).heldStep = some someStep ∧ leftWithStep.ring.normal.length < 48) ∧
    (((fullQueue leftWithStep).build 3).heldStep = some someStep ∧ 48 ≤ (fullQueue leftWithStep).ring.normal.length) ∧
    (hall.noticeQueue 1).state ≠ .waiting ∧ ((noticesWaiting 1 .waiting).part.noticeQueue 1).state = .waiting := by
  and_intros <;> decide +kernel

/-- Met: the hypothesis of WantedRecordsAreReturned, with room for the frame and without. -/
theorem witness_WantedRecordsAreReturned :
    (let p := wantedAt 47;
      ((p.build 3).hold.filter (fun r => decide ((p.holdRec r).mark = .wanted))) = [12, 14] ∧ p.ring.normal.length = 47) ∧
    (let p := wantedAt 48;
      ((p.build 3).hold.filter (fun r => decide ((p.holdRec r).mark = .wanted))).Nodup ∧ p.ring.normal.length = 48) := by
  and_intros <;> decide +kernel

/-- Met: the hypotheses of ModeRequestsChangeTheMode's last three clauses: BAD_STATE, CONFIG with an IDLE build that holds a
FOREIGN record, and RUN. -/
theorem witness_ModeRequestsChangeTheMode_others :
    (let pkt := request 0x40 (b8 0);
      atHall.part.receivesRequest .mode pkt ∧ pkt.u8 8 = 0 ∧ atHall.part.mode ≠ .config ∧
        ∃ b, 1 ≤ b ∧ b ≤ 64 ∧ (atHall.part.build b).state ≠ .idle ∧ (atHall.part.build b).state ≠ .outOfService) ∧
    (let p := idleForeign;
      let pkt := request 0x40 (b8 0);
      p.receivesRequest .mode pkt ∧ pkt.u8 8 = 0 ∧ p.mode ≠ .config ∧
        (∀ b, (p.build b).state = .idle ∨ (p.build b).state = .outOfService) ∧
        ((List.range' 1 64).flatMap (fun b =>
          if (p.build b).state = .idle then (p.build b).hold.filter (fun r => !(p.holdRec r).isLine) else [])) = [12] ∧
        (p.holdRec 12).carrier = 112 ∧ (p.carrier 112).state = .held 3 12 (.foreign .reject)) ∧
    (let pkt := request 0x40 (b8 1);
      atHall.part.receivesRequest .mode pkt ∧ pkt.u8 8 = 1 ∧ atHall.part.mode ≠ .run) := by
  have listed : idleForeign.builds.map Prod.fst = [3] := by decide +kernel
  have resting : ∀ b, (idleForeign.build b).state = .idle ∨ (idleForeign.build b).state = .outOfService := by
    intro b
    by_cases hb : b = 3
    · subst hb
      decide +kernel
    · have e : idleForeign.build b = {} := get_unlisted _ _ _ (by simpa [listed] using hb)
      exact .inr (by rw [e])
  refine ⟨⟨?_, ?_, ?_, 3, ?_⟩, ⟨?_, ?_, ?_, resting, ?_⟩, ?_⟩ <;> decide +kernel

/-- A routing action above 2 names none of the three (section 2.10). -/
theorem test_a_routing_action_above_two_is_refused :
    RouteAction.ofCode 3 = none ∧
      (after (.tableWrite (write 12 1 (b8 1 ++ b8 3 ++ b16 0))) atHall).map (fun p => (p.ring.normal.map Post.payload, p.tables)) =
        some ([[1, 5, 5] ++ zeros 21], smallTables) := by
  and_intros <;> decide +kernel

/-- Met: the hypotheses of DescriptionTablesStoreTheirEntries at tables 1 and 2: refused, stored, and no entry. -/
theorem witness_DescriptionTablesStoreTheirEntries_articles :
    (let pkt := write 1 8191 (b8 1 ++ b8 3 ++ b16 30001 ++ b8 16 ++ b8 255 ++ b8 128);
      configHall.part.receivesRequest .tableWrite pkt ∧ pkt.u8 8 = 1 ∧ pkt.u16 9 = 8191 ∧ configHall.part.mode = .config ∧
        pkt.u8 11 = 1 ∧ 127 < pkt.u8 17) ∧
    (let pkt := write 1 1 (b8 0 ++ b8 9);
      configHall.part.receivesRequest .tableWrite pkt ∧ pkt.u8 8 = 1 ∧ pkt.u16 9 = 1 ∧ pkt.u8 11 = 0) ∧
    (let pkt := write 1 8191 (b8 1 ++ b8 3 ++ b16 30001 ++ b8 16 ++ b8 255 ++ b8 127);
      configHall.part.receivesRequest .tableWrite pkt ∧ pkt.u8 8 = 1 ∧ pkt.u16 9 = 8191 ∧ pkt.u8 11 = 1 ∧
        Zone.ofCode (pkt.u8 12) = some .bottle ∧ pkt.u16 13 ≠ 0 ∧ pkt.u8 17 ≤ 127) ∧
    (let pkt := write 2 127 (b16 10 ++ b16 11 ++ b16 10);
      configHall.part.receivesRequest .tableWrite pkt ∧ pkt.u8 8 = 2 ∧ pkt.u16 9 = 127 ∧
        ¬ (((List.range 8).map (fun k => pkt.u16 (11 + 2 * k))).takeWhile (fun m => decide (m ≠ 0))).Nodup) ∧
    (let pkt := write 2 1 (b16 10 ++ b16 8191 ++ b16 0 ++ b16 10);
      configHall.part.receivesRequest .tableWrite pkt ∧ pkt.u8 8 = 2 ∧ pkt.u16 9 = 1 ∧
        ((List.range 8).map (fun k => pkt.u16 (11 + 2 * k))).takeWhile (fun m => decide (m ≠ 0)) = [10, 8191]) := by
  and_intros <;> decide +kernel

/-- Met: the hypotheses of DescriptionTablesStoreTheirEntries at tables 3 and 4: refused and stored. -/
theorem witness_DescriptionTablesStoreTheirEntries_lanes :
    (let pkt := write 3 255 (b16 1023);
      atHall.part.receivesRequest .tableWrite pkt ∧ pkt.u8 8 = 3 ∧ pkt.u16 9 = 255 ∧
        (atHall.part.lane (pkt.u16 9)).online = false ∧ 1023 ≤ pkt.u16 11) ∧
    (let pkt := write 3 255 (b16 1022 ++ b8 3 ++ b8 9 ++ b8 1);
      atHall.part.receivesRequest .tableWrite pkt ∧ pkt.u8 8 = 3 ∧ pkt.u16 9 = 255 ∧
        (atHall.part.lane (pkt.u16 9)).online = false ∧ pkt.u16 11 < 1023 ∧ Zone.ofCode (pkt.u8 13) = some .bottle ∧
        pkt.u8 15 ≤ 1) ∧
    (let pkt := write 4 1 (b8 0 ++ b8 2);
      configHall.part.receivesRequest .tableWrite pkt ∧ pkt.u8 8 = 4 ∧ pkt.u16 9 = 1 ∧ configHall.part.mode = .config ∧
        1 < pkt.u8 12) ∧
    (let pkt := write 4 255 (b8 1 ++ b8 1);
      configHall.part.receivesRequest .tableWrite pkt ∧ pkt.u8 8 = 4 ∧ pkt.u16 9 = 255 ∧ pkt.u8 11 ≤ 1 ∧
        pkt.u8 12 ≤ 1) := by
  and_intros <;> decide +kernel

/-- Met: the hypotheses of DescriptionTablesStoreTheirEntries at table 5: a bay node that bay 3 has, and one of its own. -/
theorem witness_DescriptionTablesStoreTheirEntries_bays :
    (let pkt := write 5 64 (b16 310 ++ b16 41 ++ b8 9 ++ b8 33 ++ b8 15);
      atHall.part.receivesRequest .tableWrite pkt ∧ pkt.u8 8 = 5 ∧ pkt.u16 9 = 64 ∧
        (atHall.part.build (pkt.u16 9)).state = .outOfService ∧ pkt.u16 13 ≠ 0 ∧
        (atHall.part.bayDir 3).bayNode = pkt.u16 13) ∧
    (let pkt := write 5 64 (b16 310 ++ b16 42 ++ b8 9 ++ b8 33 ++ b8 15);
      atHall.part.receivesRequest .tableWrite pkt ∧ pkt.u8 8 = 5 ∧ pkt.u16 9 = 64 ∧
        (atHall.part.build (pkt.u16 9)).state = .outOfService ∧ pkt.u16 11 < 1023 ∧ pkt.u16 13 < 1023 ∧ pkt.u8 17 < 16 ∧
        ¬ ∃ b, 1 ≤ b ∧ b ≤ 64 ∧ b ≠ pkt.u16 9 ∧ pkt.u16 13 ≠ 0 ∧ (atHall.part.bayDir b).bayNode = pkt.u16 13) := by
  refine ⟨?_, ?_, ?_, ?_, ?_, ?_, ?_, ?_, ?_⟩
  case refine_9 =>
    rintro ⟨b, -, -, -, hn, hb⟩
    have e : (write 5 64 (b16 310 ++ b16 42 ++ b8 9 ++ b8 33 ++ b8 15)).u16 13 = 42 := by decide +kernel
    rw [e] at hb
    by_cases h3 : b = 3
    · subst h3
      exact absurd hb (by decide)
    · rw [Part.bayDir, get_unlisted _ _ _ (by simpa [atHall, machine, hall, smallTables] using h3)] at hb
      cases hb
  all_goals decide +kernel

/-- Met: the hypotheses of SchedulingAndFinishTablesStoreTheirEntries at tables 7 to 10. -/
theorem witness_SchedulingAndFinishTablesStoreTheirEntries_scheduling :
    (let pkt := write 7 3 (b16 4001);
      configHall.part.receivesRequest .tableWrite pkt ∧ pkt.u8 8 = 7 ∧ pkt.u16 9 ≤ 3 ∧ configHall.part.mode = .config) ∧
    (let pkt := write 8 31 (b8 7); atHall.part.receivesRequest .tableWrite pkt ∧ pkt.u8 8 = 8 ∧ pkt.u16 9 ≤ 31) ∧
    (let pkt := write 9 0 (b8 16); atHall.part.receivesRequest .tableWrite pkt ∧ pkt.u8 8 = 9 ∧ pkt.u16 9 = 0) ∧
    (let pkt := write 10 63 (b16 2048);
      atHall.part.receivesRequest .tableWrite pkt ∧ pkt.u8 8 = 10 ∧ pkt.u16 9 = 63 ∧
        atHall.part.useCount (pkt.u16 9) = 0 ∧ 2047 < pkt.u16 11) ∧
    (let pkt := write 10 1 (b16 2047);
      atHall.part.receivesRequest .tableWrite pkt ∧ pkt.u8 8 = 10 ∧ pkt.u16 9 = 1 ∧
        atHall.part.useCount (pkt.u16 9) = 0 ∧ pkt.u16 11 ≤ 2047) := by
  and_intros <;> decide +kernel

/-- Met: the hypotheses of SchedulingAndFinishTablesStoreTheirEntries at table 11: a group of which one step has no meaning,
and a group of an ACTION, a WAIT, a NOTE and an END. -/
theorem witness_SchedulingAndFinishTablesStoreTheirEntries_steps :
    (∀ k y, k < 4 → 1 ≤ y → y ≤ 63 → 0 < atHall.part.useCount y →
      atHall.part.inFinishList y (4 * 511 + k) = false) ∧
    (let pkt := write 11 511 (b8 6); atHall.part.receivesRequest .tableWrite pkt ∧ pkt.u8 8 = 11 ∧ pkt.u16 9 = 511 ∧
      pkt.u8 11 = 6) ∧
    (let pkt := write 11 511 (b8 2 ++ b8 9 ++ b16 77 ++ b8 3 ++ b8 0 ++ b16 0 ++ b8 4 ++ b8 0 ++ b16 44 ++ b8 5);
      atHall.part.receivesRequest .tableWrite pkt ∧ pkt.u8 8 = 11 ∧ pkt.u16 9 = 511 ∧ pkt.u8 11 = 2 ∧ pkt.u8 12 ≠ 0 ∧
        pkt.u8 15 = 3 ∧ pkt.u8 19 = 4 ∧ pkt.u8 23 = 5) :=
  ⟨fun _ _ _ _ _ h => absurd h (Nat.lt_irrefl 0), by decide +kernel, by decide +kernel⟩

/-- Met: the hypotheses of SchedulingAndFinishTablesStoreTheirEntries at tables 12 to 14, a STALLED destination's entry among
them. -/
theorem witness_SchedulingAndFinishTablesStoreTheirEntries_notices :
    (let pkt := write 12 16 (b8 4 ++ b8 3);
      atHall.part.receivesRequest .tableWrite pkt ∧ pkt.u8 8 = 12 ∧ pkt.u16 9 = 16 ∧ 2 < pkt.u8 12) ∧
    (let pkt := write 12 1 (b8 4 ++ b8 2);
      atHall.part.receivesRequest .tableWrite pkt ∧ pkt.u8 8 = 12 ∧ pkt.u16 9 = 1 ∧ pkt.u8 11 ≤ 4 ∧
        RouteAction.ofCode (pkt.u8 12) = some .laneOffline) ∧
    (let pkt := write 13 4 (b16 1024);
      atHall.part.receivesRequest .tableWrite pkt ∧ pkt.u8 8 = 13 ∧ pkt.u16 9 = 4 ∧ 1023 < pkt.u16 11) ∧
    (let pkt := write 13 1 (b16 1023 ++ b8 3);
      atHall.part.receivesRequest .tableWrite pkt ∧ pkt.u8 8 = 13 ∧ pkt.u16 9 = 1 ∧ pkt.u16 11 ≤ 1023 ∧
        (atHall.part.noticeQueue (pkt.u16 9)).state ≠ .stalled) ∧
    (let pkt := write 13 1 (b16 50 ++ b8 3);
      stalled.part.receivesRequest .tableWrite pkt ∧ pkt.u8 8 = 13 ∧ pkt.u16 9 = 1 ∧ pkt.u16 11 ≤ 1023 ∧
        (stalled.part.noticeQueue (pkt.u16 9)).state = .stalled ∧ pkt.u16 11 ≠ 0) ∧
    (let pkt := write 14 1 (b16 1023);
      atHall.part.receivesRequest .tableWrite pkt ∧ pkt.u8 8 = 14 ∧ pkt.u16 9 = 1 ∧ 1023 ≤ pkt.u16 11) ∧
    (let pkt := write 14 2 (b16 1022);
      atHall.part.receivesRequest .tableWrite pkt ∧ pkt.u8 8 = 14 ∧ pkt.u16 9 = 2 ∧ pkt.u16 11 < 1023) := by
  and_intros <;> decide +kernel

/-- Met: the hypothesis of BindingsOpenABuild. -/
theorem witness_BindingsOpenABuild :
    waitingBook.order? 77 = some { draft with state := .waiting } := by decide +kernel

/-- Met: the hypotheses of RaisedNoticesAreQueuedAndActedOn: each way a notice is queued, and each action. -/
theorem witness_RaisedNoticesAreQueuedAndActedOn :
    ((unrouted.part.routing .tickFault).dest = 0 ∧ (unrouted.part.routing .tickFault).action = .none) ∧
    ((hall.routing .tickFault).dest = 1 ∧ 16 ≤ ((noticesWaiting 16 .pacing).part.noticeQueue 1).queue.length ∧
      ((noticesWaiting 15 .pacing).part.noticeQueue 1).queue.length < 16 ∧
      ((noticesWaiting 15 .pacing).part.noticeQueue 1).state ≠ .idle ∧ (hall.noticeQueue 1).queue.length < 16 ∧
      (hall.noticeQueue 1).state = .idle) ∧
    ((routedTo .holdBay).routing .tickFault).action = .holdBay ∧
    (((routedTo .laneOffline).routing .tickFault).action = .laneOffline ∧
      ((routedTo .laneOffline).lane 7).online = true ∧ ((routedTo .laneOffline).lane 255).online = false) := by
  and_intros <;> decide +kernel

/-- Met: the hypotheses of CallsAreCreatedForUncalledUnits where nothing is called: no units, a build that does not gather,
and each shortage. -/
theorem witness_CallsAreCreatedForUncalledUnits_short :
    (hall.orderAt 3 = some boundOrder ∧ Map.find? boundOrder.lines 0 = some homeLine ∧ homeLine.uncalled = 0) ∧
    (((inState .shortHold).build 3).state ≠ .gathering) ∧
    (asks (lineHall (newLine 12 .home) 9000) (newLine 12 .home) 9000 ∧ (hall.article 12).valid = false) ∧
    (asks (lineHall (newLine 13 .persist) 9000) (newLine 13 .persist) 9000 ∧ (hall.article 13).valid = true ∧
      (hall.article 13).homeLane = 0) ∧
    (let p := (lineHall (newLine 10 .home) 9000).modLane 7 (fun x => { x with online := false });
      asks p (newLine 10 .home) 9000 ∧ (p.article 10).valid = true ∧ (p.article 10).homeLane = 7 ∧
        (p.lane 7).online = false) ∧
    (let p := (lineHall (newLine 10 .home) 9000).modLane 7 (fun x => { x with stockOut := true });
      asks p (newLine 10 .home) 9000 ∧ (p.lane 7).online = true ∧ (p.lane 7).stockOut = true) := by
  and_intros <;> decide +kernel

/-- Met: the hypotheses of CallsAreCreatedForUncalledUnits at the ceiling: all three units fit, two, and none; PERSIST on an
EMPTY lane; a substitute found and none. -/
theorem witness_CallsAreCreatedForUncalledUnits_called :
    (let p := lineHall (newLine 10 .home) 4610;
      asks p (newLine 10 .home) 4610 ∧ (p.article 10).valid = true ∧ (p.article 10).homeLane = 7 ∧
        (p.lane 7).online = true ∧ (p.lane 7).stockOut = false ∧ (p.build 3).committed + 3 * (p.article 10).nominal = 4610) ∧
    (let p := lineHall (newLine 10 .home) 4609;
      asks p (newLine 10 .home) 4609 ∧ 4609 < (p.build 3).committed + 3 * (p.article 10).nominal ∧
        (4609 - (p.build 3).committed) / (p.article 10).nominal = 2) ∧
    (let p := lineHall (newLine 10 .home) 3609;
      asks p (newLine 10 .home) 3609 ∧ (3609 - (p.build 3).committed) / (p.article 10).nominal = 0) ∧
    (let p := (lineHall (newLine 10 .persist) 4610).modLane 7 (fun x => { x with stockOut := true });
      asks p (newLine 10 .persist) 4610 ∧ (p.lane 7).stockOut = true) ∧
    (let p := lineHall (newLine 13 .substitute) 4610;
      asks p (newLine 13 .substitute) 4610 ∧ p.search 3 13 3 (p.build 3).committed 4610 0 = some (2, 10)) ∧
    (let p := lineHall (newLine 13 .substitute) 4609;
      asks p (newLine 13 .substitute) 4609 ∧ p.search 3 13 3 (p.build 3).committed 4609 0 = none) := by
  and_intros <;> decide +kernel

/-- Met: the hypotheses of SubstitutesMoveOnToTheNextMember: a next member that fits to the gram, and the list exhausted. -/
theorem witness_SubstitutesMoveOnToTheNextMember :
    (∀ n < 9, (movingOn n).orderAt ((movingOn n).call 4).bay =
        some (lineOrder { newLine 13 .substitute with outstanding := 2, uncalled := 0 } 3110) ∧
      (movingOn n).lineAt ((movingOn n).call 4).bay ((movingOn n).call 4).line =
        some { newLine 13 .substitute with outstanding := 2, uncalled := 0 } ∧
      ((movingOn n).build ((movingOn n).call 4).bay).state = .gathering ∧ 0 < ((movingOn n).call 4).count) ∧
    (movingOn 0).search 3 13 2 (((movingOn 0).build 3).committed - 2 * 500) 3110 (max (0 + 1) 0) = some (2, 10) ∧
    (movingOn 2).search 3 13 2 (((movingOn 2).build 3).committed - 2 * 500) 3110 (max (2 + 1) 0) = none := by
  decide +kernel

/-- Met: FreedRecordsGoToTheNeediestLine's offers: record 0 taken by the one line that waits, and no line waiting. -/
theorem witness_FreedRecordsGoToTheNeediestLine :
    (let p := lineHall (newLine 10 .home) 9000; Part.Offers 0 1 p (p.request takeLaneOut 3 0)) ∧
      Part.Offers 0 0 hall hall := by
  refine ⟨?_, .noneWaits 0 _ ?_⟩
  · have waits : ∀ b i o, (lineHall (newLine 10 .home) 9000).lineWaits b i o →
        b = 3 ∧ o = lineOrder (newLine 10 .home) 9000 := fun b i o h =>
      ⟨gathering_only (by decide) h.2.2.1, orderAt_only rfl h.2.2.2.1⟩
    refine .offered 0 _ _ 3 0 (lineOrder (newLine 10 .home) 9000) (by decide +kernel)
      ⟨by decide, by decide, by decide +kernel, by decide +kernel, newLine 10 .home, by decide +kernel⟩ ?_ ?_
      (.taken _ _ (by decide +kernel))
    · intro b o h
      rw [orderAt_only rfl h]
      decide
    · intro b i o h
      obtain ⟨rfl, rfl⟩ := waits b i o h
      exact ⟨by decide +kernel, fun _ => Nat.le_refl 3, fun _ => Nat.zero_le i⟩
  · rintro b i o ⟨-, -, -, ho, l, hl, hu⟩
    have e : ∀ kv ∈ boundOrder.lines, (Prod.snd kv).uncalled = 0 := by decide
    rw [orderAt_only rfl ho] at hl
    have hm : (i, l) ∈ boundOrder.lines := by
      simp only [boundOrder, Map.find?_cons] at hl
      split at hl
      · cases hl; subst i; exact .head _
      · split at hl
        · cases hl; subst i; exact .tail _ (.head _)
        · cases hl
    exact absurd (e _ hm) (Nat.pos_iff_ne_zero.mp hu)

/-- Met: the call of CallsAreCreatedForUncalledUnits where no record is FREE. -/
theorem witness_CallsAreCreatedForUncalledUnits_noRecord :
    let taken : Map Call := (List.range' 0 512).map (fun r => (r, { state := .sent }));
    let p : Part := { hall with calls := { smallCalls with recs := taken } };
    ∀ r, r < 512 → (p.call r).state ≠ .free := by
  have listed : ∀ n m r, m ≤ r → r < m + n →
      Map.find? ((List.range' m n).map (fun r => (r, ({ state := .sent } : Call)))) r = some { state := .sent } := by
    intro n
    induction n with
    | zero => intro m r hm hr; omega
    | succ n ih =>
      intro m r hm hr
      rw [List.range'_succ, List.map_cons, Map.find?_cons]
      split
      · rfl
      · exact ih (m + 1) r (by omega) (by omega)
  intro taken p r hr
  have e : p.call r = { state := .sent } := by
    change Map.get {} taken r = _
    rw [Map.get, listed 512 0 r (Nat.zero_le r) (by omega)]
    rfl
  rw [e]
  decide

/-- Met: the hypotheses of EmptyAndOfflineLanesResolveTheirQueues: a record not QUEUED, one not on the queue, and one of each
mode; a queue with a last record and none; a lane EMPTY and not. -/
theorem witness_EmptyAndOfflineLanesResolveTheirQueues :
    (let p := callWaiting 0;
      ((p.call 4).state ≠ .queued ∧ 9 ∉ (p.lane 8).queue) ∧
      (9 ∈ (p.lane 7).queue ∧ (p.call 9).state = .queued ∧ (p.call 9).mode = .home) ∧
      (p.lane 7).queue = [4] ++ [9] ∧ (p.lane 8).queue = [] ∧ (p.lane 7).stockOut = false) ∧
    (let p := (callWaiting 0).modCall 9 (fun c => { c with mode := .substitute });
      9 ∈ (p.lane 7).queue ∧ (p.call 9).state = .queued ∧ (p.call 9).mode = .substitute) ∧
    (6 ∈ (emptyLane.part.lane 8).queue ∧ (emptyLane.part.call 6).state = .queued ∧
      (emptyLane.part.call 6).mode = .persist ∧ (emptyLane.part.lane 8).stockOut = true) := by
  and_intros <;> decide +kernel

/-- Met: the hypotheses of AnswersCreditTheirCarriers: a FAULT, a PLACED carrier with stock, one on EMPTY stock, and one more
carrier than was sent for. -/
theorem witness_AnswersCreditTheirCarriers :
    ((hall.call 4).state = .sent ∧ (hall.call 4).generation = 6 ∧ (hall.call 4).sentCount = 2) ∧
    ∀ pkt ∈ [answer (callTag 4 6) 2 1 [], answer (callTag 4 6) 1 1 [4095], answer (callTag 4 6) 1 2 [105],
        answer (callTag 4 6) 1 1 [105, 106, 107]],
      pkt.wf = true ∧ atHall.part.receives pkt ∧ atHall.part.mode ≠ .config ∧ answerChecks pkt = true ∧
        tagIndex (pkt.u16 6) = 4 ∧ tagHigh (pkt.u16 6) = 6 := by decide +kernel

/-- Met: the hypotheses of StaleAnswersMakeSurplus: a stale Answer from the record's last lane and from another, and an
ORPHAN's. -/
theorem witness_StaleAnswersMakeSurplus :
    (let pkt := answer (callTag 4 5) 1 2 [105, 4096];
      pkt.wf = true ∧ atHall.part.receives pkt ∧ atHall.part.mode ≠ .config ∧ answerChecks pkt = true ∧
        (atHall.part.call (tagIndex (pkt.u16 6))).generation ≠ tagHigh (pkt.u16 6) ∧
        (atHall.part.call 4).lastLane = 7 ∧ (atHall.part.laneDir 7).node = pkt.src.toNat ∧
        sentElsewhere.part.receives pkt ∧ (sentElsewhere.part.call 4).lastLane = 8 ∧
        (sentElsewhere.part.laneDir 8).node ≠ pkt.src.toNat) ∧
    (let pkt := answer (callTag 4 6) 1 2 [105];
      let s := answerDue .orphan;
      pkt.wf = true ∧ s.part.receives pkt ∧ s.part.mode ≠ .config ∧ answerChecks pkt = true ∧
        (s.part.call (tagIndex (pkt.u16 6))).generation = tagHigh (pkt.u16 6) ∧
        (s.part.call (tagIndex (pkt.u16 6))).state = .orphan) := by
  and_intros <;> decide +kernel

/-- Met: the hypotheses of SightingsFollowTheEntry's first clause: EN_ROUTE, FREE, SURPLUS and STEERED carriers. -/
theorem witness_SightingsFollowTheEntry :
    (∀ c ∈ [100, 200, 4095], (sighting 6 c 10 65535).u16 7 = c ∧ atHall.part.hears (sighting 6 c 10 65535)) ∧
      atHall.part.mode ≠ .config ∧ (hall.carrier 100).state = .enRoute 3 0 ∧ (hall.carrier 4095).state = .free ∧
      ((loose 10 hall).carrier 200).state = .surplus ∧
      (let s := steered (.running 5) .draining;
        s.part.hears (sighting 6 101 10 65535) ∧ s.part.mode ≠ .config ∧
          (s.part.carrier 101).state = .steered 3 0 20 (.running 5) ∧ (s.part.build 3).state = .draining) := by
  and_intros <;> decide +kernel

/-- Met: the hypotheses of SightingsFollowTheEntry at each read of a carrier: nothing, another article, the last article, and
no read. -/
theorem witness_SightingsFollowTheEntry_reads :
    ((hall.carrier 100).state = .enRoute 3 0 ∧ 8191 ≠ (hall.carrier 100).article) ∧
    (let g : Sight := ⟨6, 100, 0, 8191, 65535⟩; 1 ≤ g.read ∧ g.read ≤ 8191) ∧
    (let g : Sight := ⟨6, 100, 0, 8192, 65535⟩; 8191 < g.read) ∧ (let g : Sight := ⟨6, 100, 0, 0, 65535⟩; g.read = 0) ∧
      ((loose 10 hall).carrier 200).state = .surplus ∧ (hall.carrier 200).state = .free := by
  and_intros <;> decide +kernel

/-- Met: the hypotheses of SightingsFollowTheEntry at a SURPLUS carrier: without an article, not weighed, on both sides of the
band's upper end. -/
theorem witness_SightingsFollowTheEntry_surplus :
    (((loose 0 hall).carrier 200).state = .surplus ∧ ((loose 0 hall).carrier 200).article = 0) ∧
    (let p := loose 10 hall;
      (p.carrier 200).state = .surplus ∧ (p.carrier 200).article = 10 ∧ p.scale 6 = true ∧ p.scale 5 = false ∧
        (p.article 10).valid = true ∧ inBand (p.article 10) (p.const 8) (596 - p.tare 0) = true ∧
        inBand (p.article 10) (p.const 8) (597 - p.tare 0) = false) := by
  and_intros <;> decide +kernel

/-- Met: the hypotheses of SightingsWeighLineCarriers: without a scale, and a net weight at each end of the band, inside and
outside. -/
theorem witness_SightingsWeighLineCarriers :
    (let x := hall.carrier 100;
      x.state = .enRoute 3 0 ∧ x.article = 10 ∧ hall.scale 5 = false ∧ hall.scale 6 = true ∧
        (hall.article 10).valid = true) ∧
    (let a := hall.article 10;
      let A := a.nominal * a.tolerance / 64 + hall.const 8;
      A < a.nominal ∧ (504 - hall.tare 0 = a.nominal - A ∧ 503 - hall.tare 0 < a.nominal - A) ∧
        (596 - hall.tare 0 = a.nominal + A ∧ a.nominal + A < 597 - hall.tare 0) ∧ 49 < hall.tare 0) := by
  and_intros <;> decide +kernel

/-- Met: the hypotheses of SurplusCarriersAreClaimed from uncalled units, at the ceiling: bay 3 alone gathers, and line 0 is
its lowest. -/
theorem witness_SurplusCarriersAreClaimed_uncalled :
    let p := loose 10 (lineHall (newLine 10 .home) 3610);
    let o := lineOrder (newLine 10 .home) 3610;
    (p.carrier 200).state = .surplus ∧ Map.rising p.calls.recs = true ∧
      (∀ b x, p.orderAt b = some x → Map.rising x.lines = true) ∧
      ((p.article 10).valid = true ∧ (p.build 3).state = .gathering ∧ (p.build 3).holdFlag = false ∧
        inZones (p.bayDir 3).zones (p.article 10).zone = true ∧ p.orderAt 3 = some o) ∧
      (Map.find? o.lines 0 = some (newLine 10 .home) ∧ (p.build 3).committed + 500 = o.ceiling) ∧
      ∀ b i x, p.orderAt b = some x → (p.build b).state = .gathering →
        moreUrgent x o = false ∧ (moreUrgent o x = false → 3 ≤ b) ∧ (b = 3 → 0 ≤ i) := by
  refine ⟨by decide +kernel, by decide +kernel, fun b x h => ?_, by decide +kernel, by decide +kernel,
    fun b i x h hb => ⟨?_, fun _ => ?_, fun _ => Nat.zero_le i⟩⟩
  · rw [orderAt_only rfl h]
    decide
  · rw [orderAt_only rfl h]
    decide +kernel
  · rw [gathering_only (by decide +kernel) hb]

/-- Met: the hypotheses of SurplusCarriersAreClaimed from a call of three units and of one, and with no line: an article that
is not valid. -/
theorem witness_SurplusCarriersAreClaimed_called :
    (∀ n ∈ [1, 3], let p := queuedFor n;
      ((p.carrier 200).state = .surplus ∧ Map.rising p.calls.recs = true ∧
        p.orderAt 3 = some (lineOrder homeLine 3110) ∧ Map.find? (lineOrder homeLine 3110).lines 0 = some homeLine ∧
        homeLine.uncalled = 0) ∧
      ((p.call 4).state = .queued ∧ (p.call 4).bay = 3 ∧ (p.call 4).line = 0 ∧ (p.call 4).article = 10 ∧
        (p.call 4).count = n ∧ (p.build 3).committed + 500 = 3110 + (p.call 4).nominal) ∧
      p.calls.recs.map Prod.fst = [4]) ∧
    (let p := loose 12 hall; (p.carrier 200).state = .surplus ∧ (p.article (p.carrier 200).article).valid = false) := by
  decide +kernel

/-- Met: the hypotheses of SteeringAttempts, clause by clause: a block, a full spur, an exhausted pool disarmed and armed, and
a record reserved with the urgent queue open and full. -/
theorem witness_SteeringAttempts :
    (∀ s ∈ [atHall, blockedBay, fullSpur, poolDry false, poolDry true, urgentFull],
      (s.part.carrier 100).state = .enRoute 3 0 ∧ (s.part.build 3).holdFlag = false ∧
        (s = blockedBay ↔ (s.part.build 3).blocked = true)) ∧
    ((fullSpur.part.bayDir 3).spur = (fullSpur.part.build 3).hold.length + (fullSpur.part.build 3).reserved) ∧
    ((atHall.part.build 3).hold.length + (atHall.part.build 3).reserved < (atHall.part.bayDir 3).spur) ∧
    ((poolDry true).part.pool = { smallPool with free := [] } ∧
      (poolDry false).part.pool = { smallPool with free := [], armed := false }) ∧
    (atHall.part.pool.free = [20, 21] ∧ atHall.part.ring.urgent.length < 16 ∧ urgentFull.part.pool.free = [20, 21] ∧
      16 ≤ urgentFull.part.ring.urgent.length) := by
  and_intros <;> decide +kernel

/-- Met: the hypotheses of CompletionAndDrainTestsEndABuild's completion test: a line not settled, a short line, no style and a
style. -/
theorem witness_CompletionAndDrainTestsEndABuild_completion :
    (hall.orderAt 3 = some boundOrder ∧ (0, homeLine) ∈ boundOrder.lines ∧ homeLine.enRoute ≠ 0) ∧
    ∀ short ∈ [0, 5], ∀ style ∈ [0, 63],
      let p := settledHall short style;
      let o := settledOrder short style;
      (p.orderAt 3 = some o ∧ (p.build 3).state = .gathering ∧ (p.build 3).foreigns = 0 ∧ o.tolerant = false ∧
        o.style = style) ∧
      (∀ kv ∈ o.lines, (Prod.snd kv).enRoute = 0 ∧ (Prod.snd kv).outstanding = 0 ∧ (Prod.snd kv).uncalled = 0 ∧
        (Prod.snd kv).short = short) ∧
      ∀ r ∈ (p.build 3).hold, (p.holdRec r).mark = .none := by decide +kernel

/-- Met: the hypotheses of CompletionAndDrainTestsEndABuild's end-of-drain test, with and without the pending-out mark, and
where it does not pass. -/
theorem witness_CompletionAndDrainTestsEndABuild_drain :
    (∀ out ∈ [false, true], let y := (drained out).build 3;
      y.state = .draining ∧ y.hold = [] ∧ y.reserved = 0 ∧ y.orphans = 0 ∧ y.pendingOut = out) ∧
      ((inState .draining).build 3).hold ≠ [] := by decide +kernel

/-- Met: the hypotheses of BayFlagsAndServiceAreSet where the hold flag of an IDLE bay is cleared. -/
theorem witness_BayFlagsAndServiceAreSet_cleared :
    let p := withBuild (fun y => { y with state := .idle, hold := [], holdFlag := true }) hall;
    let pkt := request 0x22 (b8 3 ++ b8 0);
    p.receivesRequest .bayHold pkt ∧ pkt.u8 8 = 3 ∧ pkt.u8 9 = 0 ∧ (p.build 3).holdFlag = true ∧
      (p.build 3).state = .idle := by
  and_intros <;> decide +kernel

/-- Met: the hypotheses of AbortsHandOverTheWork for an abort in RUN, with a reply that takes the last entry of the normal
queue, and for the cancel of a bound order. -/
theorem witness_AbortsHandOverTheWork_accepted :
    (let p := runHall.modNormal (fun _ => List.replicate 47 somePost);
      let pkt := request 0x23 (b8 3 ++ b8 1);
      p.receivesRequest .buildAbort pkt ∧ pkt.u8 8 = 3 ∧ pkt.u8 9 = 1 ∧ (p.build 3).state = .gathering ∧ p.mode = .run) ∧
    (let pkt := request 0x12 (b32 77);
      atHall.part.receivesRequest .orderCancel pkt ∧ atHall.part.order? (pkt.u32 8) = some boundOrder ∧
        boundOrder.state = .bound 3 ∧ (atHall.part.build 3).state ≠ .clearing) := by
  and_intros <;> decide +kernel

/-- Met: the hypotheses of AbortsHandOverTheWork's third clause, where bay 3 has a QUEUED call besides the SENT one. -/
theorem witness_AbortsHandOverTheWork_handOver :
    let p := callWaiting 0;
    let waits : Part → Nat → Bool := fun q r =>
      decide ((q.call r).bay = 3 ∧ ((q.call r).state = .queued ∨ (q.call r).state = .deferred));
    let q := ((p.calls.recs.map Prod.fst).filter (fun r => waits p r)).foldl
      (fun q r => if waits q r then q.freeAndOffer takeLaneOut r else q) p;
    Map.rising p.calls.recs = true ∧ Map.rising q.calls.recs = true ∧ waits p 9 = true ∧ (q.call 9).state = .free ∧
      (q.call 4).state = .sent := by decide +kernel

end Sys2Proof.Tests
end

namespace Sys2Proof.Machine

/-- What a command makes of the part is what its effect makes of it. -/
theorem State.onPart_eq {s : State} {f : Part → Part} {p : Part} (h : f s.part = p) :
    s.onPart f = .next { s with part := p } := by
  rw [State.onPart, h]

/-! ### The Ring Port: damaged frames and the slot arbiter (R5, R13) -/

/-- RESETN is high at a live part (R23). -/
theorem Part.resetHeld_of_listening {p : Part} (h : p.listening = true) : p.ring.resetHeld = false := by
  simp only [Part.listening, Part.inert, Bool.not_or, Bool.and_eq_true, Bool.not_eq_true'] at h
  exact h.1

/-- While RESETN is high, a slot with a wrong check word is replaced by Empty and counted, whatever it holds (R5). -/
theorem exec_damagedFrame {s : State} {f : Frame} (hf : f.sound = false) (hr : s.part.ring.resetHeld = false) :
    exec (.damagedFrame f) s = .next { s with part := (s.part.putSlot emptyFrame).count .damaged } := by
  change execDamagedFrame f s = _
  simp [execDamagedFrame, hr, hf, State.onPart]

theorem exec_emptySlotFill (s : State) : exec .emptySlotFill s = s.onPart Part.fillSlot := rfl

/-- The head of the urgent queue leaves in an Empty slot (R13). -/
theorem Part.fillSlot_urgent {p : Part} {x : Post} {rest : List Post} (hl : p.listening = true)
    (hk : p.ring.slot.kind = 0) (hu : p.ring.urgent = x :: rest) :
    p.fillSlot = { p with ring := { p.ring with slot := p.launch x, urgent := rest } } := by
  have hi : p.inert = false := by simpa [Part.listening] using hl
  simp [Part.fillSlot, hi, hk, hu]

/-- A live part that replaces a damaged frame is still live, its slot is Empty and its urgent queue is as it was. -/
theorem Part.urgent_waits_after_damaged {p : Part} (hl : p.listening = true) :
    let q := (p.putSlot emptyFrame).count .damaged
    q.listening = true ∧ q.ring.slot.kind = 0 ∧ q.ring.urgent = p.ring.urgent :=
  ⟨by simpa [Part.listening] using hl, rfl, rfl⟩

/-- Settles O11: the damaged frame leaves an Empty slot at a live part, which is what the slot arbiter fills. -/
theorem damagedFramesBecomeEmpty : Obligations.DamagedFramesBecomeEmpty := by
  refine ⟨fun s f hf hr => exec_damagedFrame hf hr, fun s t f x rest hf hl hu ht => ?_⟩
  rw [exec_damagedFrame hf (Part.resetHeld_of_listening hl)] at ht
  cases ht
  obtain ⟨hl', hk, hu'⟩ := Part.urgent_waits_after_damaged hl
  rw [exec_emptySlotFill]
  exact State.onPart_eq (Part.fillSlot_urgent hl' hk (hu'.trans hu))

/-! ### Undelivered Notices and Admin Replies (R11) -/

theorem exec_noticeUndelivered (pkt : Packet) (s : State) :
    exec (.noticeUndelivered pkt) s = s.onPart (Part.ownKind .notice pkt) := rfl

theorem exec_adminReplyUndelivered (pkt : Packet) (s : State) :
    exec (.adminReplyUndelivered pkt) s = s.onPart (Part.ownKind .adminReply pkt) := rfl

/-- An own frame come round undelivered is only counted when its block does nothing with it (R8, R11). -/
theorem Part.ownKind_dropped {kind : SentKind} {pkt : Packet} {p : Part} (h : p.ownReturned pkt)
    (hd : ∀ q : Part, q.handBack takeLaneOut kind pkt = q) : p.ownKind kind pkt = p.stripCounted kind := by
  rw [Part.ownKind_returned h, hd]

/-- Settles O14: the part strips and counts its returned frame, and no block does anything with a Notice or an Admin
Reply handed back. -/
theorem undeliveredNoticesAndRepliesAreDropped : Obligations.UndeliveredNoticesAndRepliesAreDropped := by
  intro s pkt h
  rw [exec_noticeUndelivered, exec_adminReplyUndelivered]
  exact ⟨State.onPart_eq (Part.ownKind_dropped h fun _ => rfl),
    State.onPart_eq (Part.ownKind_dropped h fun _ => rfl)⟩

/-! ### COUNTERS_READ (R26) -/

/-- A request whose own part leaves the part as it is: the request is taken and its reply posted, and nothing else
happens (R18, R19). -/
theorem Part.adminRequest_unchanged {code : RequestCode} {pkt : Packet} {body : Packet → Part → Reply} {p : Part}
    {st : Status} {data : List Byte} (h : p.receivesRequest code pkt)
    (hb : body pkt (p.replied pkt .ok []) = ⟨st, data, p.replied pkt .ok []⟩) :
    p.adminRequest code pkt body = p.replied pkt st data :=
  Part.adminRequest_eq (q := p.takeOn .adminRequest pkt) h hb

/-- Taking a request and posting its reply counts nothing. -/
@[simp] theorem Part.counter_replied (pkt : Packet) (st : Status) (data : List Byte) (p : Part) (i : Nat) :
    (p.replied pkt st data).counter i = p.counter i := rfl

/-- A first index above 24 is refused (R26). -/
theorem countersRead_badIndex {pkt : Packet} (p : Part) (h : 24 < pkt.u8 8) :
    countersRead pkt p = ⟨.badIndex, [], p⟩ := by
  simp [countersRead, h, refuse]

/-- A first index up to 24 is answered with the counters from it, 9 of them or those that remain (R26). -/
theorem countersRead_ok {pkt : Packet} (p : Part) (h : pkt.u8 8 ≤ 24) :
    countersRead pkt p = ⟨.ok, b8 (pkt.u8 8) ++ b8 (min 9 (25 - pkt.u8 8)) ++
      ((List.range' (pkt.u8 8) (min 9 (25 - pkt.u8 8))).map (fun i => b16 (p.counter i))).flatten, p⟩ := by
  simp [countersRead, Nat.not_lt.mpr h, accept, countersShown]

theorem exec_countersRead (pkt : Packet) (s : State) :
    exec (.countersRead pkt) s = s.onPart (fun p => p.adminRequest .countersRead pkt countersRead) := rfl

/-- Settles O19: the read leaves the part as it is, and the counters it shows are those of the part before it. -/
theorem countersReadReturnsTheCounters : Obligations.CountersReadReturnsTheCounters := by
  intro s pkt h
  rw [exec_countersRead]
  refine ⟨fun hi => ?_, fun hi => ?_⟩ <;> apply State.onPart_eq
  · exact Part.adminRequest_unchanged h (countersRead_badIndex _ hi)
  · apply Part.adminRequest_unchanged h
    simpa only [Part.counter_replied] using countersRead_ok (s.part.replied pkt .ok []) hi

end Sys2Proof.Machine

namespace Sys2Proof.Machine

/-! ### ORDER_PURGE (R61) -/

/-- The four terminal states (R56). -/
theorem OrderState.terminal_iff {st : OrderState} :
    st.terminal = true ↔ st = .done ∨ st = .doneShort ∨ st = .cancelled ∨ st = .failed := by
  cases st <;> simp [OrderState.terminal]

/-- The states of an order that is not terminal (R56). -/
theorem OrderState.not_terminal_iff {st : OrderState} :
    st.terminal = false ↔ st = .draft ∨ st = .waiting ∨ ∃ b, st = .bound b := by
  cases st <;> simp [OrderState.terminal]

/-- Taking a request and posting its reply leaves the Order Book as it was. -/
@[simp] theorem Part.order_q_replied (pkt : Packet) (st : Status) (data : List Byte) (p : Part) (n : Nat) :
    (p.replied pkt st data).order? n = p.order? n := rfl

/-- No live record carries the number of a record taken out of the book. -/
theorem Part.order_q_erase_self (p : Part) (k : Nat) :
    (p.modOrders (fun m => Map.erase m k)).order? k = none := Map.find?_erase_self p.book.orders k

/-- The other records stay in the book as they were. -/
theorem Part.order_q_erase_ne (p : Part) {k n : Nat} (h : n ≠ k) :
    (p.modOrders (fun m => Map.erase m k)).order? n = p.order? n := Map.find?_erase_ne p.book.orders h

/-- A request that changes only the Order Book's records: the reply is posted, and nothing else happens (R18, R19). -/
theorem Part.adminRequest_modOrders {code : RequestCode} {pkt : Packet} {body : Packet → Part → Reply} {p : Part}
    {st : Status} {data : List Byte} {f : Map Order → Map Order} (h : p.receivesRequest code pkt)
    (hb : body pkt (p.replied pkt .ok []) = ⟨st, data, (p.replied pkt .ok []).modOrders f⟩) :
    p.adminRequest code pkt body = (p.modOrders f).replied pkt st data :=
  Part.adminRequest_eq (q := (p.modOrders f).takeOn .adminRequest pkt) h hb

theorem exec_orderPurge (pkt : Packet) (s : State) :
    exec (.orderPurge pkt) s = s.onPart (fun p => p.adminRequest .orderPurge pkt orderPurge) := rfl

/-- A number that no live record carries is refused (R61 check 1). -/
theorem orderPurge_unknownOrder {pkt : Packet} {p : Part} (hn : pkt.u32 8 ≠ 0) (ho : p.order? (pkt.u32 8) = none) :
    orderPurge pkt p = ⟨.unknownOrder, [], p⟩ := by
  simp [orderPurge, orderNumber, hn, ho, refuse]

/-- An order that is not terminal is refused (R61 check 2). -/
theorem orderPurge_badState {pkt : Packet} {p : Part} {o : Order} (hn : pkt.u32 8 ≠ 0)
    (ho : p.order? (pkt.u32 8) = some o) (ht : o.state.terminal = false) :
    orderPurge pkt p = ⟨.badState, [], p⟩ := by
  simp [orderPurge, orderNumber, hn, ho, ht, refuse]

/-- A terminal order named by its number is removed (R61). -/
theorem orderPurge_one {pkt : Packet} {p : Part} {o : Order} (hn : pkt.u32 8 ≠ 0)
    (ho : p.order? (pkt.u32 8) = some o) (ht : o.state.terminal = true) :
    orderPurge pkt p = ⟨.ok, b16 1, p.modOrders (fun m => Map.erase m (pkt.u32 8))⟩ := by
  simp [orderPurge, orderNumber, hn, ho, ht, accept]

/-- Number 0 removes every terminal record, and answers how many fewer records there are (R61). -/
theorem orderPurge_all {pkt : Packet} {p : Part} (hn : pkt.u32 8 = 0) :
    orderPurge pkt p =
      ⟨.ok, b16 (p.book.orders.length - (p.book.orders.filter (fun kv : Nat × Order => !kv.2.state.terminal)).length),
        p.modOrders (fun m => m.filter (fun kv => !kv.2.state.terminal))⟩ := by
  have hgone : (p.book.orders.filter (fun kv : Nat × Order => kv.2.state.terminal)).length =
      p.book.orders.length - (p.book.orders.filter (fun kv : Nat × Order => !kv.2.state.terminal)).length :=
    Nat.eq_sub_of_add_eq (List.length_eq_length_filter_add _).symm
  simp only [orderPurge, orderNumber, hn, accept, if_true, hgone]

/-- Settles O28: a refused purge only posts its reply, and an accepted one writes nothing else but the book's records. -/
theorem orderPurgeRemovesTerminalRecords : Obligations.OrderPurgeRemovesTerminalRecords := by
  intro s pkt h
  simp only [exec_orderPurge]
  refine ⟨fun hn ho => ?unknown, fun o hn ho ht => ?kept, fun o hn ho ht => ?one, fun hn => ?all⟩
  case unknown => exact State.onPart_eq (Part.adminRequest_unchanged h (orderPurge_unknownOrder hn ho))
  case kept =>
    have ht := OrderState.not_terminal_iff.mpr ht
    exact State.onPart_eq (Part.adminRequest_unchanged h (orderPurge_badState hn ho ht))
  case one =>
    have ht := OrderState.terminal_iff.mpr ht
    refine ⟨_, State.onPart_eq (Part.adminRequest_modOrders h (orderPurge_one hn ho ht)), rfl, ?_, fun n hne => ?_⟩
    · rw [Part.order_q_replied, Part.order_q_erase_self]
    · rw [Part.order_q_replied, Part.order_q_erase_ne _ hne]
  case all => exact State.onPart_eq (Part.adminRequest_modOrders h (orderPurge_all hn))

/-! ### The urgency key (R63) -/

/-- The fields of the key as numbers, the first of them the most significant (R63). -/
def Order.urgencyKey (o : Order) : Nat ×ₗ Nat ×ₗ Nat := toLex (o.priority, toLex (o.due.toNat, o.seq.toNat))

theorem moreUrgent_iff (a b : Order) : moreUrgent a b = true ↔
    a.priority < b.priority ∨ (a.priority = b.priority ∧
      (a.due.toNat < b.due.toNat ∨ (a.due = b.due ∧ a.seq.toNat < b.seq.toNat))) := by
  simp [moreUrgent]

/-- The more urgent order is the one whose key comes first in the lexicographic order. -/
theorem moreUrgent_iff_urgencyKey_lt (a b : Order) : moreUrgent a b = true ↔ a.urgencyKey < b.urgencyKey := by
  simp only [moreUrgent_iff, Order.urgencyKey, Prod.Lex.toLex_lt_toLex, BitVec.toNat_inj]

theorem Order.urgencyKey_eq_iff {a b : Order} :
    a.urgencyKey = b.urgencyKey ↔ a.priority = b.priority ∧ a.due = b.due ∧ a.seq = b.seq := by
  simp only [Order.urgencyKey, EmbeddingLike.apply_eq_iff_eq, Prod.mk.injEq, BitVec.toNat_inj]

/-- Settles O29: the comparison is the strict order of the keys, and the lexicographic order of keys is linear. -/
theorem urgencyIsAStrictOrder : Obligations.UrgencyIsAStrictOrder := by
  refine ⟨moreUrgent_iff, fun a => ?irrefl, fun a b c => ?trans, fun a b => ?trichotomy⟩
  case irrefl => simp [← Bool.not_eq_true, moreUrgent_iff_urgencyKey_lt]
  case trans =>
    simp only [moreUrgent_iff_urgencyKey_lt]
    exact lt_trans
  case trichotomy =>
    simp only [moreUrgent_iff_urgencyKey_lt, ← Order.urgencyKey_eq_iff]
    rcases lt_trichotomy a.urgencyKey b.urgencyKey with hlt | heq | hgt
    · exact .inl hlt
    · exact .inr (.inr heq)
    · exact .inr (.inl hgt)

end Sys2Proof.Machine

namespace Sys2Proof.Machine

/-! ### The meaning of each command, by the kind of event it is -/

theorem exec_bayCommandUndelivered (pkt : Packet) (s : State) :
    exec (.bayCommandUndelivered pkt) s = s.onPart (Part.ownKind .bayCommand pkt) := rfl

theorem exec_normalEntryLeft (s : State) : exec .normalEntryLeft s = s.onPart Part.entryLeft := rfl

theorem exec_tick (pkt : Packet) (s : State) :
    exec (.tick pkt) s = s.onPart (fun p => p.deliver .tick pkt (fun q => q.takeTick (BitVec.ofNat 32 (pkt.u32 6)))) :=
      rfl

theorem exec_pitch (pkt : Packet) (s : State) :
    exec (.pitch pkt) s = s.onPart (fun p => p.deliver .pitch pkt (fun q => q.opportunity)) := rfl

theorem exec_arrived (pkt : Packet) (s : State) :
    exec (.arrived pkt) s = s.onReport .arrived pkt (fun b f p => p.arrive takeLaneOut b (f.u16 7)) := rfl

theorem exec_departed (pkt : Packet) (s : State) :
    exec (.departed pkt) s = s.onReport .departed pkt (fun b f p => p.depart takeLaneOut b (f.u16 7)) := rfl

theorem exec_stepDone (pkt : Packet) (s : State) :
    exec (.stepDone pkt) s = s.onReport .stepDone pkt (fun b f p => p.stepReport b f
      (fun q => q.nextStep takeLaneOut b)) := rfl

theorem exec_stepRefused (pkt : Packet) (s : State) :
    exec (.stepRefused pkt) s = s.onReport .stepRefused pkt (fun b f p => p.stepReport b f
      (fun q => q.stepRefusedAt takeLaneOut b)) := rfl

theorem exec_stepFault (pkt : Packet) (s : State) :
    exec (.stepFault pkt) s = s.onReport .stepFault pkt (fun b f p => p.stepReport b f
      (fun q => q.stopBuild takeLaneOut b .fault)) := rfl

theorem exec_cleared (pkt : Packet) (s : State) :
    exec (.cleared pkt) s = s.onReport .cleared pkt (fun b f p => p.clearedAt takeLaneOut b (f.u8 9)) := rfl

theorem exec_blocked (pkt : Packet) (s : State) :
    exec (.blocked pkt) s = s.onReport .blocked pkt (fun b _ p => p.setBlocked b true) := rfl

theorem exec_unblocked (pkt : Packet) (s : State) :
    exec (.unblocked pkt) s = s.onReport .unblocked pkt (fun b _ p => p.setBlocked b false) := rfl

theorem exec_answerTimeout (r : Nat) (s : State) :
    exec (.answerTimeout r) s = s.onExpiry (fun p => p.answerExpires takeLaneOut r) := rfl

theorem exec_retryTimeout (r : Nat) (s : State) :
    exec (.retryTimeout r) s = s.onExpiry (fun p => p.retryExpires r) := rfl

theorem exec_persistTimeout (r : Nat) (s : State) :
    exec (.persistTimeout r) s = s.onExpiry (fun p => p.persistExpires takeLaneOut r) := rfl

theorem exec_steerConfirmTimeout (c : Nat) (s : State) :
    exec (.steerConfirmTimeout c) s = s.onExpiry (fun p => p.confirmExpires takeLaneOut c) := rfl

theorem exec_chillExpiry (b : Nat) (s : State) :
    exec (.chillExpiry b) s = s.onExpiry (fun p => p.dwellExpires takeLaneOut b) := rfl

theorem exec_stepTimeout (b : Nat) (s : State) :
    exec (.stepTimeout b) s = s.onExpiry (fun p => p.stepExpires takeLaneOut b) := rfl

theorem exec_waitTimeout (b : Nat) (s : State) :
    exec (.waitTimeout b) s = s.onExpiry (fun p => p.waitExpires takeLaneOut b) := rfl

theorem exec_pacingTimeout (d : Nat) (s : State) :
    exec (.pacingTimeout d) s = s.onExpiry (fun p => p.pacingExpires d) := rfl

theorem exec_tableWrite (pkt : Packet) (s : State) :
    exec (.tableWrite pkt) s = s.onRequest .tableWrite pkt tableWrite := rfl

theorem exec_tableRead (pkt : Packet) (s : State) :
    exec (.tableRead pkt) s = s.onRequest .tableRead pkt tableRead := rfl

theorem exec_orderHead (pkt : Packet) (s : State) :
    exec (.orderHead pkt) s = s.onRequest .orderHead pkt orderHead := rfl

theorem exec_orderLine (pkt : Packet) (s : State) :
    exec (.orderLine pkt) s = s.onRequest .orderLine pkt (orderLine takeLaneOut) := rfl

theorem exec_orderCancel (pkt : Packet) (s : State) :
    exec (.orderCancel pkt) s = s.onRequest .orderCancel pkt (orderCancel takeLaneOut) := rfl

theorem exec_orderRead (pkt : Packet) (s : State) :
    exec (.orderRead pkt) s = s.onRequest .orderRead pkt orderRead := rfl

theorem exec_buildRead (pkt : Packet) (s : State) :
    exec (.buildRead pkt) s = s.onRequest .buildRead pkt buildRead := rfl

theorem exec_bayService (pkt : Packet) (s : State) :
    exec (.bayService pkt) s = s.onRequest .bayService pkt (bayService takeLaneOut) := rfl

theorem exec_bayHold (pkt : Packet) (s : State) :
    exec (.bayHold pkt) s = s.onRequest .bayHold pkt (bayHold takeLaneOut) := rfl

theorem exec_buildAbort (pkt : Packet) (s : State) :
    exec (.buildAbort pkt) s = s.onRequest .buildAbort pkt (buildAbort takeLaneOut) := rfl

theorem exec_shortAccept (pkt : Packet) (s : State) :
    exec (.shortAccept pkt) s = s.onRequest .shortAccept pkt (shortAccept takeLaneOut) := rfl

theorem exec_laneState (pkt : Packet) (s : State) :
    exec (.laneState pkt) s = s.onRequest .laneState pkt (laneState takeLaneOut) := rfl

theorem exec_mode (pkt : Packet) (s : State) :
    exec (.mode pkt) s = s.onRequest .mode pkt (modeRequest takeLaneOut) := rfl

theorem exec_restart (pkt : Packet) (s : State) : exec (.restart pkt) s = s.onRequest .restart pkt restartRequest := rfl

/-! ### What every command keeps

A property of the part that the blocks' primitive writes keep (`Kept`) is kept by every command, so long as the writes
of the Ring Port, of the Admin Unit and of the Order Book keep it too. The writes of the few commands that set the hall
time, a table, the mode or the straps are hypotheses of `Everyday.exec`, each asked for at those commands alone. -/

/-- `Kept`, with the writes that are not among the blocks' own: the slot and the report of the Ring Port, the reply of
a request, the records entering and leaving the Order Book, and the timers. -/
structure Everyday (P : Part → Prop) : Prop extends Kept P where
  putSlot : ∀ (f : Frame) {p : Part}, P p → P (p.putSlot f)
  fillSlot : ∀ {p : Part}, P p → P p.fillSlot
  left : ∀ (n : Nat) {p : Part}, P p → P { p with ring := { p.ring with left := n } }
  fillReply : ∀ (n : Nat) (x : Post) {p : Part}, P p → P (p.modNormal (fun q => q.set n x))
  head : ∀ (n : Nat) (o : Order) (seq : Count32) {p : Part}, p.book.orders.length < 1024 → P p →
    P { p with book := { orders := Map.put p.book.orders n o, seq := seq } }
  purgeAll : ∀ (keep : Nat × Order → Bool) {p : Part}, P p → P (p.modOrders (fun m => m.filter keep))
  purgeOne : ∀ (n : Nat) {p : Part}, P p → P (p.modOrders (fun m => Map.erase m n))
  timers : ∀ (n : Nat) {p : Part}, P p → P (p.advanceTimers n)

/-- What the Ring Port does with an Admin Request: it passes, is counted as deferred, or is handed on while the normal
queue has room (R18). -/
theorem Part.deliver_adminRequest_cases (pkt : Packet) (act : Part → Part) (p : Part) :
    p.deliver .adminRequest pkt act = p.passOn .adminRequest pkt ∨
    p.deliver .adminRequest pkt act = (p.passOn .adminRequest pkt).count .deferred ∨
    (p.ring.normal.length < 48 ∧ p.deliver .adminRequest pkt act = act (p.takeOn .adminRequest pkt)) := by
  by_cases hi : p.inert = true
  · exact .inl (Part.deliver_inert hi)
  have hl : p.listening = true := by simpa [Part.listening] using hi
  have hv := Part.verdict_received (kind := .adminRequest) (pkt := pkt) hl rfl
  unfold Part.deliver
  rw [hv]
  by_cases ha : p.addressed pkt = true
  · by_cases hq : p.ring.normal.length < 48
    · exact .inr (.inr ⟨hq, by simp [Part.kindVerdict, ha, Part.normalFree, Config.normalSize, hq, Part.takeOn]⟩)
    · exact .inr (.inl (by simp [Part.kindVerdict, ha, Part.normalFree, Config.normalSize, hq, Part.passOn]))
  · exact .inl (by simp [Part.kindVerdict, ha, Part.passOn])

namespace Everyday

variable {P : Part → Prop} (E : Everyday P)
include E

theorem deliver (k : Kind) (pkt : Packet) {act : Part → Part} (hact : ∀ {q : Part}, P q → P (act q)) {p : Part}
    (h : P p) : P (p.deliver k pkt act) := by
  have hs : ∀ f, P (p.putSlot f) := fun f => E.putSlot f h
  unfold Part.deliver
  cases p.verdict k pkt with
  | pass => exact hs _
  | strip kind undelivered => exact kept_ite (hact (E.count _ (hs _))) (hs _)
  | read => exact hact (hs _)
  | take => exact hact (hs _)
  | discard => exact E.count _ (hs _)
  | untaken => exact E.count _ (hs _)
  | deferred => exact E.count _ (hs _)

theorem takeRequest (pkt : Packet) {body : Part → Reply} (hbody : ∀ {q : Part}, P q → P (body q).part) {p : Part}
    (hq : p.ring.normal.length < 48) (h : P p) : P (p.takeRequest pkt body) := by
  have hposted : P (p.posted (replyTo pkt .ok [])) := E.post _ (Part.post_room (by simp [replyTo]) hq) h
  unfold Part.takeRequest
  apply E.fillReply
  split
  · exact hbody hposted
  · exact hposted

/-- A request that reaches the part keeps what its own part keeps. -/
theorem request (pkt : Packet) {body : Part → Reply} (hbody : ∀ {q : Part}, P q → P (body q).part)
    {p : Part} (h : P p) :
    P (p.deliver .adminRequest pkt (fun q => q.takeRequest pkt body)) := by
  have hs : ∀ f, P (p.putSlot f) := fun f => E.putSlot f h
  rcases Part.deliver_adminRequest_cases pkt (fun q => q.takeRequest pkt body) p with e | e | ⟨hq, e⟩ <;> rw [e]
  · exact hs _
  · exact E.count _ (hs _)
  · exact E.takeRequest pkt hbody hq (hs _)

theorem orderHead (pkt : Packet) {p : Part} (h : P p) : P (Machine.orderHead pkt p).part := by
  unfold Machine.orderHead
  split
  · exact h
  · split
    · exact h
    · next hfull =>
      split
      · exact h
      · exact E.head _ _ _ (by simpa [Config.bookSize] using hfull) h

theorem orderPurge (pkt : Packet) {p : Part} (h : P p) : P (Machine.orderPurge pkt p).part := by
  unfold Machine.orderPurge
  dsimp only
  split
  · exact E.purgeAll _ h
  · split
    · exact h
    · split
      · exact E.purgeOne _ h
      · exact h

theorem entryLeft {p : Part} (h : P p) : P p.entryLeft := kept_ite h (E.reportLeft (E.left _ h))

theorem takeTick (hset : ∀ (v : HallTime) {q : Part}, P q → P { q with hall := v }) (t : Count32) {p : Part} (h : P p) :
    P (p.takeTick t) := by
  unfold Part.takeTick
  split
  · exact E.timers _ (hset _ h)
  · exact E.raise E.takeLaneOut _ (E.count _ h)

theorem ownKind (kind : SentKind) (pkt : Packet) {p : Part} (h : P p) : P (p.ownKind kind pkt) :=
  E.deliver _ _ (fun hq => E.handBack E.takeLaneOut kind pkt hq) h

/-! #### From the part to the command's outcome -/

omit E in
theorem onPart {f : Part → Part} {s t : State} (e : s.onPart f = .next t) (h : P s.part)
    (hf : ∀ {q : Part}, P q → P (f q)) : P t.part := by
  cases e
  exact hf h

omit E in
theorem onExpiry {f : Part → Part} {s t : State} (e : s.onExpiry f = .next t) (h : P s.part)
    (hf : ∀ {q : Part}, P q → P (f q)) : P t.part := onPart e h (fun hq => kept_ite hq (hf hq))

theorem onReport {code : ReportCode} {pkt : Packet} {act : Nat → Packet → Part → Part} {s t : State}
    (e : s.onReport code pkt act = .next t) (h : P s.part)
    (hact : ∀ (b : Nat) (f : Packet) {q : Part}, P q → P (act b f q)) : P t.part :=
  onPart e h (fun hq => E.deliver _ _ (fun hq' => E.onBay _ (fun b _ hq'' => hact b _ hq'') hq') hq)

theorem onRequest {code : RequestCode} {pkt : Packet} {body : Packet → Part → Reply} {s t : State}
    (e : s.onRequest code pkt body = .next t) (h : P s.part)
    (hbody : ∀ (f : Packet) {q : Part}, P q → P (body f q).part) : P t.part :=
  onPart e h (fun hq => E.request _ (hbody _) hq)

theorem slotForward {f : Frame} {s t : State} (e : execSlotForward f s = .next t) (h : P s.part) : P t.part := by
  have hs : ∀ {q : Part}, P q → P (q.putSlot f) := fun hq => E.putSlot f hq
  unfold execSlotForward at e
  split at e
  · exact onPart e h hs
  · split at e
    · cases e
    · split at e
      · exact onPart e h hs
      · split at e
        · exact onPart e h hs
        · exact onPart e h (fun hq => E.count _ (hs hq))
        · exact onPart e h (fun hq => E.count _ (hs hq))
        all_goals cases e

theorem damagedFrame {f : Frame} {s t : State} (e : execDamagedFrame f s = .next t) (h : P s.part) : P t.part := by
  unfold execDamagedFrame at e
  split at e
  · exact onPart e h (fun hq => E.putSlot f hq)
  · split at e
    · cases e
    · exact onPart e h (fun hq => E.count _ (E.putSlot _ hq))

theorem badRequest {pkt : Packet} {s t : State} (e : execBadRequest pkt s = .next t) (h : P s.part) : P t.part := by
  unfold execBadRequest at e
  split at e
  · cases e
  · exact onPart e h (fun hq => E.request pkt (body := refuse .badRequest) (fun hq' => hq') hq)

/-- Every command keeps what the everyday writes keep; what a power-on reset leaves, and the writes of the mode, of the
tables and of the hall time, are asked for at the commands that make them. -/
theorem exec {i : Instr} {s t : State} (e : Machine.exec i s = .next t) (h : P s.part)
    (hpower : setsStraps i = true → P t.part)
    (hmode : setsMode i = true → ∀ (m : Mode) {q : Part}, P q → P { q with mode := m })
    (hrestart : setsMode i = true → ∀ {q : Part}, P q → P q.restart)
    (htables : setsTables i = true → ∀ (f : Tables → Tables) {q : Part}, P q → P (q.modTables f))
    (hhall : setsHallTime i = true → ∀ (v : HallTime) {q : Part}, P q → P { q with hall := v }) : P t.part := by
  have K : Kept P := E.toKept
  have off : ∀ (l : Nat) {q : Part}, P q → P (Machine.takeLaneOut l q) := fun l _ hq => K.takeLaneOut l hq
  cases i with
  | powerOnReset event => exact hpower rfl
  | slotForward slot => exact E.slotForward e h
  | damagedFrame slot => exact E.damagedFrame e h
  | emptySlotFill => exact onPart e h (fun hq => E.fillSlot hq)
  | normalEntryLeft => exact onPart e h (fun hq => E.entryLeft hq)
  | ownFrameStrip kind pkt => exact onPart e h (fun hq => E.ownKind _ _ hq)
  | callUndelivered pkt => exact onPart e h (fun hq => E.ownKind _ _ hq)
  | steerUndelivered pkt => exact onPart e h (fun hq => E.ownKind _ _ hq)
  | bayCommandUndelivered pkt => exact onPart e h (fun hq => E.ownKind _ _ hq)
  | noticeUndelivered pkt => exact onPart e h (fun hq => E.ownKind _ _ hq)
  | adminReplyUndelivered pkt => exact onPart e h (fun hq => E.ownKind _ _ hq)
  | tick pkt => exact onPart e h (fun hq => E.deliver _ _ (fun hq' => E.takeTick (hhall rfl) _ hq') hq)
  | pitch pkt => exact onPart e h (fun hq => E.deliver _ _ (fun hq' => K.opportunity hq') hq)
  | sighting pkt => exact onPart e h (fun hq => E.deliver _ _ (fun hq' => K.sight off _ hq') hq)
  | answer pkt => exact onPart e h (fun hq => E.deliver _ _ (fun hq' => K.takeAnswer off _ hq') hq)
  | arrived pkt => exact E.onReport (exec_arrived pkt s ▸ e) h (fun b _ _ hq => K.arrive off b _ hq)
  | departed pkt => exact E.onReport (exec_departed pkt s ▸ e) h (fun b _ _ hq => K.depart off b _ hq)
  | stepDone pkt => exact E.onReport (exec_stepDone pkt s ▸ e) h (fun b _ _ hq => K.stepReport b _
    (fun hq' => K.nextStep off b hq') hq)
  | stepRefused pkt => exact E.onReport (exec_stepRefused pkt s ▸ e) h (fun b _ _ hq => K.stepReport b _
    (fun hq' => K.stepRefusedAt off b hq') hq)
  | stepFault pkt => exact E.onReport (exec_stepFault pkt s ▸ e) h (fun b _ _ hq => K.stepReport b _
    (fun hq' => K.stopBuild off b _ hq') hq)
  | cleared pkt => exact E.onReport (exec_cleared pkt s ▸ e) h (fun b _ _ hq => K.clearedAt off b _ hq)
  | blocked pkt => exact E.onReport (exec_blocked pkt s ▸ e) h (fun b _ _ hq => K.setBlocked b _ hq)
  | unblocked pkt => exact E.onReport (exec_unblocked pkt s ▸ e) h (fun b _ _ hq => K.setBlocked b _ hq)
  | answerTimeout r => exact onExpiry e h (fun hq => K.answerExpires off r hq)
  | retryTimeout r => exact onExpiry e h (fun hq => K.retryExpires r hq)
  | persistTimeout r => exact onExpiry e h (fun hq => K.persistExpires off r hq)
  | steerConfirmTimeout c => exact onExpiry e h (fun hq => K.confirmExpires off c hq)
  | chillExpiry b => exact onExpiry e h (fun hq => K.dwellExpires off b hq)
  | stepTimeout b => exact onExpiry e h (fun hq => K.stepExpires off b hq)
  | waitTimeout b => exact onExpiry e h (fun hq => K.waitExpires off b hq)
  | pacingTimeout d => exact onExpiry e h (fun hq => K.pacingExpires d hq)
  | badRequest pkt => exact E.badRequest e h
  | tableWrite pkt => exact E.onRequest e h (fun f _ hq => K.tableWrite (htables rfl) f hq)
  | tableRead pkt => exact E.onRequest e h (fun f q hq => (part_tableRead f q).symm ▸ hq)
  | orderHead pkt => exact E.onRequest e h (fun f _ hq => E.orderHead f hq)
  | orderLine pkt => exact E.onRequest e h (fun f _ hq => K.orderLine f hq)
  | orderCancel pkt => exact E.onRequest e h (fun f _ hq => K.orderCancel f hq)
  | orderPurge pkt => exact E.onRequest e h (fun f _ hq => E.orderPurge f hq)
  | orderRead pkt => exact E.onRequest e h (fun f q hq => (part_orderRead f q).symm ▸ hq)
  | buildRead pkt => exact E.onRequest e h (fun f q hq => (part_buildRead f q).symm ▸ hq)
  | bayService pkt => exact E.onRequest e h (fun f _ hq => K.bayService f hq)
  | bayHold pkt => exact E.onRequest e h (fun f _ hq => K.bayHold f hq)
  | buildAbort pkt => exact E.onRequest e h (fun f _ hq => K.buildAbort f hq)
  | shortAccept pkt => exact E.onRequest e h (fun f _ hq => K.shortAccept f hq)
  | finishResume pkt =>
    exact E.onRequest e h (fun f _ hq => K.finishRequest (fun b _ hq' => K.executeStep off b hq') f hq)
  | finishSkip pkt => exact E.onRequest e h (fun f _ hq => K.finishRequest (fun b _ hq' => K.nextStep off b hq') f hq)
  | laneState pkt => exact E.onRequest e h (fun f _ hq => K.laneState f hq)
  | mode pkt => exact E.onRequest e h (fun f _ hq => K.modeRequest (hmode rfl) f hq)
  | restart pkt => exact E.onRequest e h (fun _ _ hq => hrestart rfl hq)
  | countersRead pkt => exact E.onRequest e h (fun f q hq => (part_countersRead f q).symm ▸ hq)

end Everyday

end Sys2Proof.Machine

namespace Sys2Proof.Machine

/-! ### The settings: straps, RESETN level, tables, mode, hall time (R3, R15, R20, R21, R30) -/

/-- The registers that the blocks read and never write. -/
structure Settings where
  straps    : BitVec 10
  resetHeld : Bool
  tables    : Tables
  mode      : Mode
  hall      : HallTime

/-- A part's settings. -/
def Part.settings (p : Part) : Settings := ⟨p.ring.straps, p.ring.resetHeld, p.tables, p.mode, p.hall⟩

theorem Part.settings_modOrder (n : Nat) (f : Order → Order) (p : Part) : (p.modOrder n f).settings = p.settings := by
  simp [Part.settings]

theorem Part.settings_post {x : Post} {p p' : Part} (h : p.post x = some p') : p'.settings = p.settings := by
  rcases Part.post_some h with ⟨-, -, rfl⟩ | ⟨-, -, rfl⟩ <;> rfl

theorem Part.settings_attempts (d : Nat) (l : List NoticeEntry) (p : Part) :
    (p.attempts d l).settings = p.settings := by
  induction l generalizing p with
  | nil => rfl
  | cons e rest ih =>
    unfold Part.attempts
    dsimp only
    split
    · rfl
    · split
      · rfl
      · next hx =>
        have hp := Part.settings_post hx
        split
        · exact hp
        · rw [ih]; exact hp

theorem Part.settings_queueNotice (d : Nat) (e : NoticeEntry) (p : Part) :
    (p.queueNotice d e).settings = p.settings := by
  unfold Part.queueNotice
  dsimp only
  split
  · split
    · exact Part.settings_attempts _ _ _
    · rfl
  · rfl

theorem Part.settings_fillSlot (p : Part) : p.fillSlot.settings = p.settings := by
  unfold Part.fillSlot
  split
  · rfl
  · split <;> rfl

/-- The everyday writes leave the settings alone. -/
theorem everyday_settings (R : Settings → Prop) : Everyday (fun p => R p.settings) where
  count _ _ h := h
  modBuild _ _ _ h := h
  modCall _ _ _ h := h
  modLane _ _ _ h := h
  setRec _ _ _ h := h
  setCarrier _ _ _ h := h
  modOrder _ _ p h := by rwa [Part.settings_modOrder]
  modUseCount _ _ _ h := h
  post _ _ _ hx h := by rwa [Part.settings_post hx]
  pool _ _ h := h
  cal _ _ h := h
  callSeq _ _ h := h
  carriers _ _ h := h
  queueNotice _ _ _ h := by rwa [Part.settings_queueNotice]
  postAttempt _ _ h := by rwa [Part.postAttempt, Part.settings_attempts]
  putSlot _ _ h := h
  fillSlot h := by rwa [Part.settings_fillSlot]
  left _ _ h := h
  fillReply _ _ _ h := h
  head _ _ _ _ _ h := h
  purgeAll _ _ h := h
  purgeOne _ _ h := h
  timers _ _ h := h

/-- A power-on reset sets every one of the settings. -/
theorem sets_all_of_setsStraps {c : Instr} (h : setsStraps c = true) :
    setsTables c = true ∧ setsMode c = true ∧ setsHallTime c = true := by
  cases c <;> simp_all [setsStraps, setsTables, setsMode, setsHallTime]

/-- The step of a waiting command is its effect with the command taken off the queue. -/
theorem exec_of_step {s t : State} {c : Instr} {rest : List Instr} (hs : s.pending = c :: rest)
    (h : step s = .next t) : exec c { s with pending := rest } = .next t := by
  simpa only [step, hs] using h

/-- A command that makes no write of a setting leaves it alone. -/
theorem exec_hall {c : Instr} {s t : State} (h : exec c s = .next t) (hc : setsHallTime c = false) :
    t.part.hall = s.part.hall :=
  (everyday_settings (fun v => v.hall = s.part.hall)).exec h rfl
    (fun hp => absurd (sets_all_of_setsStraps hp).2.2 (by simp [hc]))
    (fun _ _ _ hq => hq) (fun _ _ hq => hq) (fun _ _ _ hq => hq) (fun hh => absurd hh (by simp [hc]))

theorem exec_tables {c : Instr} {s t : State} (h : exec c s = .next t) (hc : setsTables c = false) :
    t.part.tables = s.part.tables :=
  (everyday_settings (fun v => v.tables = s.part.tables)).exec h rfl
    (fun hp => absurd (sets_all_of_setsStraps hp).1 (by simp [hc]))
    (fun _ _ _ hq => hq) (fun _ _ hq => hq) (fun ht => absurd ht (by simp [hc])) (fun _ _ _ hq => hq)

theorem exec_mode_kept {c : Instr} {s t : State} (h : exec c s = .next t) (hc : setsMode c = false) :
    t.part.mode = s.part.mode :=
  (everyday_settings (fun v => v.mode = s.part.mode)).exec h rfl
    (fun hp => absurd (sets_all_of_setsStraps hp).2.1 (by simp [hc]))
    (fun hm => absurd hm (by simp [hc])) (fun hm => absurd hm (by simp [hc])) (fun _ _ _ hq => hq) (fun _ _ _ hq => hq)

theorem exec_straps {c : Instr} {s t : State} (h : exec c s = .next t) (hc : setsStraps c = false) :
    t.part.ring.straps = s.part.ring.straps ∧ t.part.ring.resetHeld = s.part.ring.resetHeld :=
  (everyday_settings (fun v => v.straps = s.part.ring.straps ∧ v.resetHeld = s.part.ring.resetHeld)).exec h ⟨rfl, rfl⟩
    (fun hp => absurd hp (by simp [hc]))
    (fun _ _ _ hq => hq) (fun _ _ hq => hq) (fun _ _ _ hq => hq) (fun _ _ _ hq => hq)

/-- Settles O5: a command writes a setting only where the rules that set it are its own. -/
theorem settingsChangeOnlyAtTheirCommands : Obligations.SettingsChangeOnlyAtTheirCommands := by
  intro s t c rest hs h
  have e := exec_of_step hs h
  have hstraps := exec_straps e
  have htables := exec_tables e
  have hmode := exec_mode_kept e
  have hhall := exec_hall e
  exact ⟨hstraps, htables, hmode, hhall⟩

/-! ### The hall time does not fall (R15, R16) -/

/-- An accepted Tick carries a later number; one that is not accepted leaves the hall time as it was (R16). -/
theorem Part.hall_takeTick (n : Count32) (p : Part) (hv : p.hall.valid = true) :
    (p.takeTick n).hall.valid = true ∧ p.hall.time.toNat ≤ (p.takeTick n).hall.time.toNat := by
  have K := (everyday_settings (fun v => v.hall = p.hall)).toKept
  unfold Part.takeTick HallTime.stepTo
  rw [hv]
  by_cases hrise : p.hall.time.toNat < n.toNat
  · simpa [hrise, Part.advanceTimers] using Nat.le_of_lt hrise
  · have hk : ((p.count .tickFaults).raise takeLaneOut { kind := .tickFault }).hall = p.hall :=
      K.raise (fun l _ hq => K.takeLaneOut l hq) _ rfl
    simp [hrise, hk, hv]

/-- Settles O6: short of a power-on reset, only a Tick writes the hall time, and only a Tick that rises does. -/
theorem theHallTimeNeverFalls : Obligations.TheHallTimeNeverFalls := by
  intro s t c rest hs hpower hv h
  have e := exec_of_step hs h
  by_cases hc : setsHallTime c = true
  · cases c with
    | powerOnReset event => exact absurd rfl (hpower event)
    | tick pkt =>
      cases e
      change (Part.hall _).valid = true ∧ _ ≤ (Part.hall _).time.toNat
      have hp : ∀ f, (s.part.putSlot f).hall = s.part.hall := fun _ => rfl
      have ht := fun f => Part.hall_takeTick (BitVec.ofNat 32 (pkt.u32 6)) (s.part.putSlot f) hv
      dsimp only [Part.deliver]
      cases s.part.verdict .tick pkt with
      | read => exact ht _
      | take => exact ht _
      | strip kind undelivered =>
        cases undelivered
        · exact ⟨hv, le_rfl⟩
        · exact Part.hall_takeTick _ ((s.part.putSlot emptyFrame).count (.undelivered kind)) hv
      | _ => exact ⟨hv, le_rfl⟩
    | _ => cases hc
  · rw [exec_hall e (by simpa using hc)]
    exact ⟨hv, le_rfl⟩

/-! ### The bounds of the stores (R12, R25, R53, R192) -/

theorem Part.counter_count_le (c : Counter) (p : Part) (h : ∀ i, p.counter i ≤ 65535) (i : Nat) :
    (p.count c).counter i ≤ 65535 := by
  by_cases hi : i = c.index
  · subst hi
    rw [Part.counter_count_self]
    exact Nat.min_le_left _ _
  · rw [Part.counter_count_ne c p hi]
    exact h i

/-- The bounds of one notice queue (R192). -/
def NoticeQueue.Bounded (q : NoticeQueue) : Prop := q.queue.length ≤ 16 ∧ q.lost ≤ 255

theorem Part.Bounded.noticeQueue {p : Part} (h : p.Bounded) (d : Nat) : (p.noticeQueue d).Bounded := h.2.2.2.2.2 d

theorem Part.Bounded.setNoticeQueue {p : Part} (h : p.Bounded) (d : Nat) {v : NoticeQueue} (hv : v.Bounded) :
    (p.setNoticeQueue d v).Bounded := by
  obtain ⟨hu, hn, hc, ho, hr, hq⟩ := h
  refine ⟨hu, hn, hc, ho, hr, fun k => ?_⟩
  rw [Part.noticeQueue_setNoticeQueue]
  split
  · exact hv
  · exact hq k

theorem Part.Bounded.post {x : Post} {p p' : Part} (hx : p.post x = some p') (h : p.Bounded) : p'.Bounded := by
  obtain ⟨hu, hn, hrest⟩ := h
  rcases Part.post_some hx with ⟨-, hl, rfl⟩ | ⟨-, hl, rfl⟩
  · exact ⟨by simp only [List.length_append, List.length_singleton]; omega, hn, hrest⟩
  · exact ⟨hu, by simp only [List.length_append, List.length_singleton]; omega, hrest⟩

/-- Posting from a list of at most 16 entries leaves a destination within its bounds (R192, R195). -/
theorem Part.Bounded.attempts (d : Nat) (l : List NoticeEntry) (hl : l.length ≤ 16) {p : Part} (h : p.Bounded) :
    (p.attempts d l).Bounded := by
  induction l generalizing p with
  | nil => exact h.setNoticeQueue d ⟨by simp, (h.noticeQueue d).2⟩
  | cons e rest ih =>
    have hrest : rest.length ≤ 16 := Nat.le_of_succ_le hl
    unfold Part.attempts
    dsimp only
    split
    · exact h.setNoticeQueue d ⟨hl, (h.noticeQueue d).2⟩
    · split
      · exact h.setNoticeQueue d ⟨hl, (h.noticeQueue d).2⟩
      · next hx =>
        have hp := h.post hx
        split
        · exact hp.setNoticeQueue d ⟨hrest, Nat.zero_le _⟩
        · exact ih hrest (hp.setNoticeQueue d ⟨hrest, Nat.zero_le _⟩)

theorem Part.Bounded.postAttempt (d : Nat) {p : Part} (h : p.Bounded) : (p.postAttempt d).Bounded :=
  h.attempts d _ (h.noticeQueue d).1

theorem Part.Bounded.queueNotice (d : Nat) (e : NoticeEntry) {p : Part} (h : p.Bounded) :
    (p.queueNotice d e).Bounded := by
  unfold Part.queueNotice
  dsimp only
  split
  · next hlt =>
    have hq : (p.setNoticeQueue d { p.noticeQueue d with queue := (p.noticeQueue d).queue ++ [e] }).Bounded :=
      h.setNoticeQueue d ⟨by simpa [Config.noticeQueueSize] using hlt, (h.noticeQueue d).2⟩
    exact kept_ite (hq.postAttempt d) hq
  · exact h.setNoticeQueue d ⟨(h.noticeQueue d).1, Nat.min_le_left _ _⟩

/-- The book keeps its form and its size when a listed record is changed. -/
theorem Part.Bounded.modOrder (n : Nat) (f : Order → Order) {p : Part} (h : p.Bounded) : (p.modOrder n f).Bounded := by
  obtain ⟨hu, hn, hc, ho, hr, hq⟩ := h
  unfold Part.modOrder
  split
  · exact ⟨hu, hn, hc, ho, hr, hq⟩
  · next o hf => exact ⟨hu, hn, hc, by rwa [Map.length_put_of_find? hr _ hf], Map.rising_put hr _ _, hq⟩

theorem Part.Bounded.modOrders {f : Map Order → Map Order} {p : Part} (h : p.Bounded)
    (hl : (f p.book.orders).length ≤ p.book.orders.length) (hr : Map.rising (f p.book.orders) = true) :
    (p.modOrders f).Bounded := by
  obtain ⟨hu, hn, hc, ho, -, hq⟩ := h
  exact ⟨hu, hn, hc, le_trans hl ho, hr, hq⟩

theorem Part.Bounded.fillSlot {p : Part} (h : p.Bounded) : p.fillSlot.Bounded := by
  obtain ⟨hu, hn, hrest⟩ := h
  unfold Part.fillSlot
  split
  · exact ⟨hu, hn, hrest⟩
  · split
    · next hx => exact ⟨by rw [hx] at hu; exact Nat.le_of_succ_le hu, hn, hrest⟩
    · next hx => exact ⟨hu, by rw [hx] at hn; exact Nat.le_of_succ_le hn, hrest⟩
    · exact ⟨hu, hn, hrest⟩

theorem Part.noticeQueue_advanceTimers (n : Nat) (p : Part) (d : Nat) :
    (p.advanceTimers n).noticeQueue d = (p.noticeQueue d).advance n := Map.get_mapValues _ _ rfl _ _

theorem everyday_bounded : Everyday Part.Bounded where
  count c p h := by
    obtain ⟨hu, hn, hc, hrest⟩ := h
    exact ⟨hu, hn, p.counter_count_le c hc, hrest⟩
  modBuild _ _ _ h := h
  modCall _ _ _ h := h
  modLane _ _ _ h := h
  setRec _ _ _ h := h
  setCarrier _ _ _ h := h
  modOrder n f _ h := h.modOrder n f
  modUseCount _ _ _ h := h
  post _ _ _ hx h := h.post hx
  pool _ _ h := h
  cal _ _ h := h
  callSeq _ _ h := h
  carriers _ _ h := h
  queueNotice d e _ h := h.queueNotice d e
  postAttempt d _ h := h.postAttempt d
  putSlot _ _ h := h
  fillSlot h := h.fillSlot
  left _ _ h := h
  fillReply n x p h := by
    obtain ⟨hu, hn, hrest⟩ := h
    exact ⟨hu, by simpa using hn, hrest⟩
  head n o seq p hlt h := by
    obtain ⟨hu, hn, hc, -, hr, hq⟩ := h
    exact ⟨hu, hn, hc, le_trans (Map.length_put_le _ _ _) hlt, Map.rising_put hr _ _, hq⟩
  purgeAll keep p h := h.modOrders (List.length_filter_le _ _) (Map.rising_filter h.2.2.2.2.1 _)
  purgeOne n p h := h.modOrders (Map.length_erase_le _ _) (Map.rising_erase h.2.2.2.2.1 _)
  timers n p h := by
    obtain ⟨hu, hn, hc, ho, hr, hq⟩ := h
    exact ⟨hu, hn, hc, ho, hr, fun d => by rw [Part.noticeQueue_advanceTimers]; exact hq d⟩

theorem Part.bounded_powerOn (straps : BitVec 10) : (Part.powerOn straps).Bounded :=
  ⟨by simp [Part.powerOn], by simp [Part.powerOn], fun _ => Nat.zero_le _, by simp [Part.powerOn], rfl,
    fun _ => ⟨Nat.zero_le _, Nat.zero_le _⟩⟩

/-- A line restart keeps one frame and the book's records, and empties the other bounded stores (R24). -/
theorem Part.Bounded.restart {p : Part} (h : p.Bounded) : p.restart.Bounded := by
  obtain ⟨-, -, -, ho, hr, -⟩ := h
  refine ⟨Nat.zero_le _, ?_, fun _ => Nat.zero_le _, ?_, Map.rising_mapValues hr _,
    fun _ => ⟨Nat.zero_le _, Nat.zero_le _⟩⟩
  · change p.ring.normal.getLast?.toList.length ≤ 48
    cases p.ring.normal.getLast? <;> simp
  · simpa [Part.restart] using ho

/-- A power-on reset leaves the stores within their bounds, for it empties them at its end (R23). -/
theorem bounded_execPowerOnReset {event : ResetEvent} {s t : State} (e : execPowerOnReset event s = .next t)
    (h : s.part.Bounded) : t.part.Bounded := by
  cases e
  cases event with
  | held => exact h
  | ended straps => exact Part.bounded_powerOn straps

/-- Settles O3: every write of the part keeps the bounds, so every command does. -/
theorem everyStepKeepsTheBounds : Obligations.EveryStepKeepsTheBounds := by
  intro s t h e
  cases hs : s.pending with
  | nil =>
    rw [step, hs] at e
    cases e
    exact h
  | cons c rest =>
    have e := exec_of_step hs e
    refine everyday_bounded.exec e h (fun hp => ?_) (fun _ _ _ hq => hq) (fun _ _ hq => hq.restart)
      (fun _ _ _ hq => hq) (fun _ _ _ hq => hq)
    cases c with
    | powerOnReset event => exact bounded_execPowerOnReset e h
    | _ => cases hp

/-- Settles O4. -/
theorem resetIsWithinTheBounds : Obligations.ResetIsWithinTheBounds :=
  ⟨Part.bounded_powerOn 1, Part.bounded_powerOn⟩

/-! ### The machine's step and its reset -/

/-- Settles O1: the step looks at the front of the queue. -/
theorem stepTakesTheFrontCommand : Obligations.StepTakesTheFrontCommand :=
  ⟨fun s c rest hs => by rw [step, hs], fun s hs => by rw [step, hs]⟩

/-- Settles O2: the end of a reset leaves the power-on part in the slot's place, whose stores list nothing. -/
theorem powerOnResetLeavesPowerOnValues : Obligations.PowerOnResetLeavesPowerOnValues := by
  refine ⟨fun s straps => ⟨{ s with part := (Part.powerOn straps).putSlot s.part.ring.slot }, rfl, ?_⟩, fun s => rfl⟩
  refine ⟨rfl, rfl, rfl, rfl, rfl, fun _ => rfl, rfl, rfl, rfl, rfl, rfl, rfl, rfl, rfl, fun _ => ⟨rfl, rfl⟩,
    fun _ => rfl, rfl, rfl, fun _ => rfl, fun _ => ⟨rfl, rfl, rfl, rfl⟩, fun _ => rfl, fun _ => rfl, rfl, rfl,
    fun _ => rfl⟩

end Sys2Proof.Machine

namespace Sys2Proof

/-! ### The check word and the bytes of a slot (R1, R2) -/

/-- The two bytes of a 16-bit field spell it. -/
theorem append_halfBytes (h : Half) : h.extractLsb' 8 8 ++ h.extractLsb' 0 8 = h :=
  (BitVec.extractLsb'_append_extractLsb'_eq_extractLsb' rfl).trans BitVec.extractLsb'_eq_self

theorem extractLsb'_append_high (a b : Byte) : (a ++ b : Half).extractLsb' 8 8 = a :=
  (BitVec.extractLsb'_append_eq_of_le (xhi := a) (xlo := b) le_rfl).trans BitVec.extractLsb'_eq_self

theorem extractLsb'_append_low (a b : Byte) : (a ++ b : Half).extractLsb' 0 8 = b :=
  (BitVec.extractLsb'_append_eq_of_add_le (xhi := a) (xlo := b) le_rfl).trans BitVec.extractLsb'_eq_self

@[simp] theorem length_halfBytes (h : Half) : (halfBytes h).length = 2 := rfl

theorem wordSum_halfBytes (h : Half) : wordSum (halfBytes h) = h := by
  simp [halfBytes, wordSum, append_halfBytes]

/-- The words of a list of whole words and those of what follows it add up. -/
theorem wordSum_append (n : Nat) (l m : List Byte) (h : l.length = 2 * n) :
    wordSum (l ++ m) = wordSum l + wordSum m := by
  induction n generalizing l with
  | zero => simp [List.length_eq_zero_iff.mp h, wordSum]
  | succ n ih =>
    match l, h with
    | a :: b :: l, h =>
      have hl : l.length = 2 * n := by simp only [List.length_cons] at h; omega
      simp only [List.cons_append, wordSum, ih l hl, BitVec.add_assoc]

/-- The sixteen words of a slot, summed. -/
theorem wordSum_bytes (f : Frame) (h : f.packet.payload.length = 24) :
    wordSum f.bytes = f.packet.sum f.kind + f.check := by
  simp only [Frame.bytes, Packet.sum, List.append_assoc]
  rw [wordSum_append 1 _ _ rfl, wordSum_append 1 _ _ rfl, wordSum_append 1 _ _ rfl, wordSum_append 12 _ _ h]
  simp [wordSum_halfBytes, wordSum, BitVec.add_assoc]

/-- Setting a clear Taken mark raises the mark byte by 1. -/
theorem setTaken_of_clear : ∀ m : Byte, m.getLsbD 0 = false → m ||| 1 = m + 1 ∧ (m + 1).toNat = m.toNat + 1 := by
  decide

/-- A rise of the low byte that does not carry is a rise of the word. -/
theorem append_succ (k m : Byte) (h : (m + 1).toNat = m.toNat + 1) : (k ++ (m + 1) : Half) = (k ++ m) + 1 := by
  apply BitVec.eq_of_toNat_eq
  have value : ∀ x : Byte, (k ++ x : Half).toNat = k.toNat * 256 + x.toNat := fun x => by
    rw [BitVec.toNat_append, ← Nat.shiftLeft_add_eq_or_of_lt x.isLt, Nat.shiftLeft_eq]
  have one : (1 : Half).toNat = 1 := rfl
  have hk := k.isLt
  have hm := (m + 1).isLt
  rw [BitVec.toNat_add, value, value, h, one]
  omega

/-- A frame the part takes is sound, for its check word gives back what the mark adds (R2). -/
theorem Frame.sound_take {f : Frame} (hs : f.sound = true) (ht : f.packet.taken = false) : f.take.sound = true := by
  obtain ⟨hmark, hsucc⟩ := setTaken_of_clear f.packet.mark ht
  simp only [Frame.sound, decide_eq_true_eq] at hs ⊢
  have hsum : f.take.packet.sum f.take.kind = f.packet.sum f.kind + 1 := by
    simp only [Frame.take, Packet.sum, hmark, append_succ _ _ hsucc]
    ac_rfl
  rw [hsum, show f.take.check = f.check - 1 from rfl]
  calc f.packet.sum f.kind + 1 + (f.check - 1)
      = f.packet.sum f.kind + f.check + (1 - 1) := by rw [BitVec.sub_eq_add_neg, BitVec.sub_eq_add_neg]; ac_rfl
    _ = 0 := by rw [hs]; rfl

/-- The bytes of a slot spell its fields. -/
theorem Frame.ofBytes_bytes (f : Frame) (h : f.packet.payload.length = 24) : Frame.ofBytes f.bytes = some f := by
  obtain ⟨kind, ⟨mark, dst, src, payload⟩, check⟩ := f
  have h : payload.length = 24 := h
  have htake : (payload ++ halfBytes check).take 24 = payload := by rw [← h, List.take_left]
  simp only [halfBytes] at htake
  simp [Frame.ofBytes, Frame.bytes, halfBytes, h, append_halfBytes, htake]

/-- Any 32 bytes are the bytes of a slot. -/
theorem Frame.bytes_ofBytes (l : List Byte) (h : l.length = 32) :
    ∃ f, Frame.ofBytes l = some f ∧ f.packet.payload.length = 24 ∧ f.bytes = l := by
  match l, h with
  | a :: b :: c :: d :: e :: g :: r, h =>
    have hr : r.length = 26 := by simpa using h
    obtain ⟨x, y, hxy⟩ : ∃ x y, r.drop 24 = [x, y] := List.length_eq_two.mp (by simp [hr])
    refine ⟨_, if_pos h, by simp [hr], ?_⟩
    have hsplit : a :: b :: c :: d :: e :: g :: r = a :: b :: c :: d :: e :: g :: (r.take 24 ++ [x, y]) := by
      rw [← hxy, List.take_append_drop]
    have hlast : ∀ i, (a :: b :: c :: d :: e :: g :: r).getD (i + 30) 0 = [x, y].getD i 0 := fun i => by
      simp only [hsplit, List.getD_eq_getElem?_getD, List.getElem?_cons_succ]
      rw [List.getElem?_append_right (by simp [hr])]
      simp [hr]
    simp only [Frame.bytes, halfBytes, hlast 0, hlast 1, extractLsb'_append_high, extractLsb'_append_low]
    rw [hsplit]
    simp [hr]

namespace Machine

/-- Settles O7: the check word is the negated sum of the other words, and every field of a slot has its own bytes. -/
theorem framesSpellTheirBytesAndAreSound : Obligations.FramesSpellTheirBytesAndAreSound := by
  refine ⟨⟨fun f h => ?_, fun kind pkt => ⟨pkt.sound_seal kind, rfl, rfl⟩, fun f hs ht => ?_, by decide, by decide,
    fun node f hf => by simp [commandOf, hf]⟩, fun f h => ⟨?_, f.ofBytes_bytes h⟩, Frame.bytes_ofBytes⟩
  · rw [wordSum_bytes f h, Frame.sound, decide_eq_true_eq]
  · obtain ⟨hmark, -⟩ := setTaken_of_clear f.packet.mark ht
    refine ⟨Frame.sound_take hs ht, ?_, hmark, rfl, rfl, rfl, rfl, rfl⟩
    simp [Frame.take, Packet.taken]
  · simp [Frame.bytes, h]

end Machine

end Sys2Proof

namespace Sys2Proof

/-! ### The command that a slot spells (R1, R4 to R10, R18) -/

theorem commandOf_unsound {node : Half} {f : Frame} (h : f.sound = false) : commandOf node f = .damagedFrame f := by
  simp [commandOf, h]

/-- A sealed frame of a kind the part sends is read by its source and its Taken mark. -/
theorem commandOf_sent (node : Half) (kind : SentKind) (pkt : Packet) :
    commandOf node (pkt.seal kind.kind.code) = sentCommand node kind (pkt.seal kind.kind.code) := by
  cases kind <;> simp [commandOf, Packet.sound_seal, SentKind.kind]

theorem commandOf_report (node : Half) (pkt : Packet) :
    commandOf node (pkt.seal Kind.bayReport.code) = reportCommand (pkt.seal Kind.bayReport.code) := by
  simp [commandOf, Packet.sound_seal]

theorem commandOf_request (node : Half) (pkt : Packet) :
    commandOf node (pkt.seal Kind.adminRequest.code) = requestCommand pkt := by
  simp [commandOf, Packet.sound_seal]

/-- An own frame come round undelivered is the row of its kind. -/
theorem commandOf_undelivered {node : Half} {kind : SentKind} {pkt : Packet} (hw : pkt.wfUndelivered = true)
    (hn : pkt.src = node) : commandOf node (pkt.seal kind.kind.code) = undeliveredCommand kind pkt := by
  simp only [Packet.wfUndelivered, Bool.and_eq_true] at hw
  rw [commandOf_sent]
  simp [sentCommand, hn, hw.2]

/-- A Bay Report is the row of its subcode. -/
theorem byte6_of_wfReport {pkt : Packet} {c : ReportCode} (h : pkt.wfReport c = true) : pkt.u8 6 = c.code.toNat := by
  simp only [Packet.wfReport, Bool.and_eq_true, decide_eq_true_eq] at h
  rw [Packet.u8, h.2]

/-- An Admin Request is the row of its request code. -/
theorem ofCode_of_wfRequest {pkt : Packet} {c : RequestCode} (h : pkt.wfRequest c = true) :
    RequestCode.ofCode (pkt.byte 6) = some c := by
  simp only [Packet.wfRequest, Bool.and_eq_true, decide_eq_true_eq] at h
  rw [h.2, RequestCode.ofCode_code]

/-- A Bay Report that passes its check has a subcode from 1 to 8 (R7). -/
theorem reportChecks_iff (pkt : Packet) : reportChecks pkt = true ↔ 1 ≤ pkt.u8 6 ∧ pkt.u8 6 ≤ 8 := by
  simp [reportChecks]

theorem reportChecks_of_wfReport {pkt : Packet} {c : ReportCode} (h : pkt.wfReport c = true) :
    reportChecks pkt = true := by
  rw [reportChecks_iff, byte6_of_wfReport h]
  cases c <;> decide

/-- A Bay Report of no row is passed on (R7). -/
theorem reportCommand_unknown {f : Frame} (h : reportChecks f.packet = false) : reportCommand f = .slotForward f := by
  have hn : ¬ (1 ≤ f.packet.u8 6 ∧ f.packet.u8 6 ≤ 8) := by
    rw [← reportChecks_iff, h]
    simp
  unfold reportCommand
  split <;> first | rfl | omega

/-- A sound slot that no other row is for is SLOT_FORWARD. -/
theorem commandOf_passing {node : Half} {f : Frame} (hs : f.sound = true) (hp : f.passing node = true) :
    commandOf node f = .slotForward f := by
  unfold commandOf
  rw [hs]
  unfold Frame.passing at hp
  cases hk : Kind.ofCode f.kind with
  | none => rfl
  | some kind =>
    rw [hk] at hp
    cases kind <;> simp_all [Kind.sent?, sentCommand, reportCommand_unknown]

/-- Settles O8: each row's slot carries the row's kind, and its subcode, request code, source or Taken mark where the
rows of a kind differ by one. -/
theorem Machine.slotsSpellTheirCommands : Obligations.SlotsSpellTheirCommands := by
  intro node i f hw hr hf
  have hreport : ∀ {pkt : Packet} {c : ReportCode}, pkt.wfReport c = true →
      commandOf node (pkt.seal Kind.bayReport.code) = reportCommand (pkt.seal Kind.bayReport.code) ∧
        pkt.u8 6 = c.code.toNat := fun h => ⟨commandOf_report node _, byte6_of_wfReport h⟩
  have hrequest : ∀ {pkt : Packet} {c : RequestCode}, pkt.wfRequest c = true →
      commandOf node (pkt.seal Kind.adminRequest.code) = requestCommand pkt ∧
        RequestCode.ofCode (pkt.byte 6) = some c := fun h => ⟨commandOf_request node _, ofCode_of_wfRequest h⟩
  cases i <;> cases hf
  case slotForward =>
    simp only [Instr.wf, Bool.and_eq_true] at hw
    exact commandOf_passing hw.2 hr
  case damagedFrame =>
    simp only [Instr.wf, Bool.and_eq_true, Bool.not_eq_true'] at hw
    exact commandOf_unsound hw.2
  case ownFrameStrip kind pkt =>
    simp only [Instr.wf, Bool.and_eq_true, Bool.not_eq_true'] at hw
    simp only [Instr.reaches, decide_eq_true_eq] at hr
    rw [commandOf_sent]
    simp [sentCommand, hr, hw.2]
  case callUndelivered => exact commandOf_undelivered (kind := .call) hw (by simpa [Instr.reaches] using hr)
  case steerUndelivered => exact commandOf_undelivered (kind := .steer) hw (by simpa [Instr.reaches] using hr)
  case bayCommandUndelivered => exact commandOf_undelivered (kind := .bayCommand) hw (by simpa [Instr.reaches] using hr)
  case noticeUndelivered => exact commandOf_undelivered (kind := .notice) hw (by simpa [Instr.reaches] using hr)
  case adminReplyUndelivered => exact commandOf_undelivered (kind := .adminReply) hw (by simpa [Instr.reaches] using hr)
  case badRequest pkt =>
    simp only [Instr.wf, Bool.and_eq_true, Option.isNone_iff_eq_none] at hw
    rw [commandOf_request, requestCommand, hw.2]
  case tick => simp [commandOf, Packet.sound_seal]
  case pitch => simp [commandOf, Packet.sound_seal]
  case sighting => simp [commandOf, Packet.sound_seal]
  case answer => simp [commandOf, Packet.sound_seal]
  case' arrived => obtain ⟨e, hc⟩ := hreport hw
  case' departed => obtain ⟨e, hc⟩ := hreport hw
  case' stepDone => obtain ⟨e, hc⟩ := hreport hw
  case' stepRefused => obtain ⟨e, hc⟩ := hreport hw
  case' stepFault => obtain ⟨e, hc⟩ := hreport hw
  case' cleared => obtain ⟨e, hc⟩ := hreport hw
  case' blocked => obtain ⟨e, hc⟩ := hreport hw
  case' unblocked => obtain ⟨e, hc⟩ := hreport hw
  case arrived | departed | stepDone | stepRefused | stepFault | cleared | blocked | unblocked =>
    rw [e, reportCommand, Packet.packet_seal, hc]
    rfl
  all_goals
    obtain ⟨e, hc⟩ := hrequest hw
    rw [e, requestCommand, hc]

namespace Machine

/-! ### Rows that are frames other nodes send (R6, R7, R18) -/

theorem exec_badRequest {pkt : Packet} (h : RequestCode.ofCode (pkt.byte 6) = none) (s : State) :
    exec (.badRequest pkt) s =
      s.onPart (fun p => p.deliver .adminRequest pkt (fun q => q.takeRequest pkt (refuse .badRequest))) := by
  change execBadRequest pkt s = _
  rw [execBadRequest, h]

/-- A Bay Report of its row is delivered, and attributed to a bay. -/
theorem exec_of_received_report {i : Instr} {pkt : Packet} (hw : i.wf = true)
    (h : received i = some (.bayReport, pkt)) : reportChecks pkt = true ∧ ∃ act : Nat → Part → Part, ∀ s,
      exec i s = s.onPart (fun p => p.deliver .bayReport pkt (fun q => q.onBay pkt act)) := by
  have hreport : ∀ {j : Instr} {c : ReportCode} {act : Nat → Packet → Part → Part}, pkt.wfReport c = true →
      (∀ s, exec j s = s.onReport c pkt act) → reportChecks pkt = true ∧ ∃ act' : Nat → Part → Part, ∀ s,
        exec j s = s.onPart (fun p => p.deliver .bayReport pkt (fun q => q.onBay pkt act')) :=
    fun {_ _ act} hc e => ⟨reportChecks_of_wfReport hc, fun b => act b pkt, fun s => by
      rw [e, State.onReport, Packet.withCode_of_wfReport hc]⟩
  cases i <;> cases h
  case arrived => exact hreport hw (exec_arrived pkt)
  case departed => exact hreport hw (exec_departed pkt)
  case stepDone => exact hreport hw (exec_stepDone pkt)
  case stepRefused => exact hreport hw (exec_stepRefused pkt)
  case stepFault => exact hreport hw (exec_stepFault pkt)
  case cleared => exact hreport hw (exec_cleared pkt)
  case blocked => exact hreport hw (exec_blocked pkt)
  case unblocked => exact hreport hw (exec_unblocked pkt)

/-- An Admin Request of its row, and one of no row, is delivered to the Admin Unit. -/
theorem exec_of_received_request {i : Instr} {pkt : Packet} (hw : i.wf = true)
    (h : received i = some (.adminRequest, pkt)) : ∃ body : Part → Reply, ∀ s,
      exec i s = s.onPart (fun p => p.deliver .adminRequest pkt (fun q => q.takeRequest pkt body)) := by
  have hrequest : ∀ {c : RequestCode} (body : Packet → Part → Reply), pkt.wfRequest c = true →
      ∃ body' : Part → Reply, ∀ s : State, s.onRequest c pkt body =
        s.onPart (fun p => p.deliver .adminRequest pkt (fun q => q.takeRequest pkt body')) := fun {c} body hc =>
    ⟨body pkt, fun s => by
      simp only [State.onRequest, Part.adminRequest, Packet.withCode_of_wfRequest hc]⟩
  cases i <;> cases h
  case badRequest =>
    simp only [Instr.wf, Bool.and_eq_true, Option.isNone_iff_eq_none] at hw
    exact ⟨_, exec_badRequest hw.2⟩
  all_goals exact hrequest _ hw

/-- Every frame of a row that other nodes send is delivered by its kind. -/
theorem exec_of_received {i : Instr} {k : Kind} {pkt : Packet} (hw : i.wf = true) (h : received i = some (k, pkt)) :
    k.sent? = none ∧ ∃ act : Part → Part, ∀ s, exec i s = s.onPart (fun p => p.deliver k pkt act) := by
  have hk : k = .bayReport ∨ k = .adminRequest ∨ (k.sent? = none ∧ ∃ act : Part → Part, ∀ s,
      exec i s = s.onPart (fun p => p.deliver k pkt act)) := by
    cases i <;> cases h
    case tick => exact .inr (.inr ⟨rfl, _, fun _ => rfl⟩)
    case pitch => exact .inr (.inr ⟨rfl, _, fun _ => rfl⟩)
    case sighting => exact .inr (.inr ⟨rfl, _, fun _ => rfl⟩)
    case answer => exact .inr (.inr ⟨rfl, _, fun _ => rfl⟩)
    all_goals first | exact .inl rfl | exact .inr (.inl rfl)
  rcases hk with rfl | rfl | hk
  · obtain ⟨-, act, e⟩ := exec_of_received_report hw h
    exact ⟨rfl, _, e⟩
  · obtain ⟨body, e⟩ := exec_of_received_request hw h
    exact ⟨rfl, _, e⟩
  · exact hk

/-! ### Slots of no other row (R4) -/

/-- A slot that no other row is for is left untaken when it is addressed to a live part, and passed otherwise. -/
theorem Part.verdict_of_passing {p : Part} {f : Frame} {kind : Kind} (hl : p.listening = true)
    (hk : Kind.ofCode f.kind = some kind) (hp : f.passing p.node = true) :
    p.verdict kind f.packet = if p.addressed f.packet then .untaken else .pass := by
  have hi : p.inert = false := by simpa [Part.listening] using hl
  rw [Frame.passing, hk] at hp
  cases kind <;>
    simp_all [Kind.sent?, Part.verdict, Part.kindVerdict, Part.unicastVerdict, -Bool.if_true_left]

/-- SLOT_FORWARD at a live part (R4, R7). -/
theorem exec_slotForward {s : State} {f : Frame} (hl : s.part.listening = true) (hs : f.sound = true)
    (hp : f.passing s.part.node = true) : exec (.slotForward f) s = .next { s with part :=
      (if (Kind.ofCode f.kind).isSome ∧ f.packet.dst = s.part.node ∧ f.packet.taken = false then
        (s.part.putSlot f).count .untaken
      else s.part.putSlot f) } := by
  change execSlotForward f s = _
  rw [execSlotForward, Part.resetHeld_of_listening hl, hs]
  cases hk : Kind.ofCode f.kind with
  | none => simp [State.onPart]
  | some kind =>
    have hv := Part.verdict_of_passing hl hk hp
    by_cases ha : f.packet.dst = s.part.node ∧ f.packet.taken = false
    · simp [hv, Part.addressed, ha, State.onPart]
    · have ha' : s.part.addressed f.packet = false := by simpa [Part.addressed] using ha
      simp [hv, ha, ha', State.onPart]

/-- SLOT_FORWARD at an inert part: the slot goes on (R3, R23). -/
theorem exec_slotForward_inert {s : State} {f : Frame} (hi : s.part.inert = true) (hs : f.sound = true) :
    exec (.slotForward f) s = .next { s with part := s.part.putSlot f } := by
  change execSlotForward f s = _
  rw [execSlotForward, hs]
  cases s.part.ring.resetHeld with
  | true => rfl
  | false => cases hk : Kind.ofCode f.kind <;> simp [Part.verdict, hi, State.onPart]

theorem exec_damagedFrame_held {s : State} {f : Frame} (hr : s.part.ring.resetHeld = true) :
    exec (.damagedFrame f) s = .next { s with part := s.part.putSlot f } := by
  change execDamagedFrame f s = _
  simp [execDamagedFrame, hr, State.onPart]

/-! ### Every slot runs -/

/-- A command runs: it leads to a next state and leaves the commands waiting. -/
def Runs (i : Instr) (s : State) : Prop := ∃ t, exec i s = .next t ∧ t.pending = s.pending

theorem runs_slotForward {s : State} {f : Frame} (hs : f.sound = true) (hp : f.passing s.part.node = true) :
    Runs (.slotForward f) s := by
  by_cases hi : s.part.inert = true
  · exact ⟨_, exec_slotForward_inert hi hs, rfl⟩
  · exact ⟨_, exec_slotForward (by simpa [Part.listening] using hi) hs hp, rfl⟩

theorem runs_damagedFrame {s : State} {f : Frame} (hf : f.sound = false) : Runs (.damagedFrame f) s := by
  cases hr : s.part.ring.resetHeld with
  | true => exact ⟨_, exec_damagedFrame_held hr, rfl⟩
  | false => exact ⟨_, exec_damagedFrame hf hr, rfl⟩

theorem runs_sentCommand {s : State} {kind : SentKind} {f : Frame} (hs : f.sound = true)
    (hk : Kind.ofCode f.kind = some kind.kind) : Runs (sentCommand s.part.node kind f) s := by
  unfold sentCommand
  split
  · split
    · cases kind <;> exact ⟨_, rfl, rfl⟩
    · exact ⟨_, rfl, rfl⟩
  · next hn =>
    refine runs_slotForward hs ?_
    rw [Frame.passing, hk]
    cases kind <;> simpa [SentKind.kind, Kind.sent?] using hn

theorem runs_reportCommand {s : State} {f : Frame} (hs : f.sound = true) (hk : Kind.ofCode f.kind = some .bayReport) :
    Runs (reportCommand f) s := by
  by_cases hc : reportChecks f.packet = true
  · obtain ⟨hlo, hhi⟩ := (reportChecks_iff f.packet).mp hc
    unfold reportCommand
    generalize f.packet.u8 6 = code at hlo hhi
    interval_cases code <;> exact ⟨_, rfl, rfl⟩
  · have hc : reportChecks f.packet = false := by simpa using hc
    rw [reportCommand_unknown hc]
    exact runs_slotForward hs (by simp [Frame.passing, hk, hc])

theorem runs_requestCommand (s : State) (pkt : Packet) : Runs (requestCommand pkt) s := by
  unfold requestCommand
  split
  · next hc => exact ⟨_, exec_badRequest hc s, rfl⟩
  all_goals exact ⟨_, rfl, rfl⟩

/-- Settles O9: the rows that refuse an operand are not the rows that a slot with that operand spells. -/
theorem everySlotRuns : Obligations.EverySlotRuns := by
  intro s f
  change Runs (commandOf s.part.node f) s
  by_cases hs : f.sound = true
  · unfold commandOf
    rw [hs]
    cases hk : Kind.ofCode f.kind with
    | none => exact runs_slotForward hs (by simp [Frame.passing, hk])
    | some kind =>
      cases kind with
      | bayReport => exact runs_reportCommand hs hk
      | adminRequest => exact runs_requestCommand s f.packet
      | call => exact runs_sentCommand (kind := .call) hs hk
      | steer => exact runs_sentCommand (kind := .steer) hs hk
      | bayCommand => exact runs_sentCommand (kind := .bayCommand) hs hk
      | notice => exact runs_sentCommand (kind := .notice) hs hk
      | adminReply => exact runs_sentCommand (kind := .adminReply) hs hk
      | pitch => exact ⟨_, rfl, rfl⟩
      | tick => exact ⟨_, rfl, rfl⟩
      | sighting => exact ⟨_, rfl, rfl⟩
      | answer => exact ⟨_, rfl, rfl⟩
  · have hs : f.sound = false := by simpa using hs
    rw [commandOf_unsound hs]
    exact runs_damagedFrame hs

end Machine

end Sys2Proof

namespace Sys2Proof.Machine

/-! ### Inert parts (R3, R23) -/

/-- The slot of a frame that other nodes send. -/
theorem slot_of_received {i : Instr} {k : Kind} {pkt : Packet} (h : received i = some (k, pkt)) :
    i.slot = some (pkt.seal k.code) := by
  cases i <;> cases h <;> rfl

theorem ownKind_inert {p : Part} (hi : p.inert = true) (kind : SentKind) (pkt : Packet) :
    p.ownKind kind pkt = p.putSlot (pkt.seal kind.kind.code) := Part.deliver_inert hi

/-- A slot that is no frame of another node, and is not damaged, is a passed slot or an own frame come round. -/
theorem exec_slot_inert_own {s : State} {i : Instr} {f : Frame} (hi : s.part.inert = true) (hw : i.wf = true)
    (hr : received i = none) (hf : i.slot = some f) (hd : ∀ g, i ≠ .damagedFrame g) :
    f.sound = true ∧ exec i s = .next { s with part := s.part.putSlot f } := by
  have hown : ∀ (kind : SentKind) pkt, (pkt.seal kind.kind.code).sound = true ∧
      s.onPart (Part.ownKind kind pkt) = .next { s with part := s.part.putSlot (pkt.seal kind.kind.code) } :=
    fun kind pkt => ⟨pkt.sound_seal _, State.onPart_eq (ownKind_inert hi kind pkt)⟩
  cases i <;> cases hr <;> cases hf
  case slotForward =>
    simp only [Instr.wf, Bool.and_eq_true] at hw
    exact ⟨hw.2, exec_slotForward_inert hi hw.2⟩
  case damagedFrame => exact absurd rfl (hd f)
  case ownFrameStrip => exact hown _ _
  case callUndelivered => exact hown .call _
  case steerUndelivered => exact hown .steer _
  case bayCommandUndelivered => exact hown .bayCommand _
  case noticeUndelivered => exact hown .notice _
  case adminReplyUndelivered => exact hown .adminReply _

/-- An inert part passes every slot, and reads nothing of it; what it does with a damaged frame is apart. -/
theorem exec_slot_inert {s : State} {i : Instr} {f : Frame} (hi : s.part.inert = true) (hw : i.wf = true)
    (hf : i.slot = some f) (hd : ∀ g, i ≠ .damagedFrame g) :
    f.sound = true ∧ exec i s = .next { s with part := s.part.putSlot f } := by
  cases hr : received i with
  | some e =>
    obtain ⟨k, pkt⟩ := e
    obtain ⟨-, act, he⟩ := exec_of_received hw hr
    cases (slot_of_received hr).symm.trans hf
    exact ⟨pkt.sound_seal _, (he s).trans (State.onPart_eq (Part.deliver_inert hi))⟩
  | none => exact exec_slot_inert_own hi hw hr hf hd

theorem fillSlot_inert {p : Part} (hi : p.inert = true) : p.fillSlot = p := by
  simp [Part.fillSlot, hi]

/-- Settles O10: an inert part's verdict is to pass, and only a part that is not held in reset looks at check words. -/
theorem inertPartsOnlyForward : Obligations.InertPartsOnlyForward := by
  refine ⟨fun s i f hr hw hf => ?held, fun s hr hstraps => ?forwarder⟩
  case held =>
    by_cases hd : ∃ g, i = .damagedFrame g
    · obtain ⟨g, rfl⟩ := hd
      cases hf
      exact exec_damagedFrame_held hr
    · exact (exec_slot_inert (by simp [Part.inert, hr]) hw hf (fun g e => hd ⟨g, e⟩)).2
  case forwarder =>
    have hi : s.part.inert = true := by rcases hstraps with h | h <;> simp [Part.inert, Part.forwarder, h]
    refine ⟨fun i f hw hf => ?_, State.onPart_eq (fillSlot_inert hi)⟩
    by_cases hd : ∃ g, i = .damagedFrame g
    · obtain ⟨g, rfl⟩ := hd
      cases hf
      simp only [Instr.wf, Bool.and_eq_true, Bool.not_eq_true'] at hw
      rw [hw.2]
      exact exec_damagedFrame hw.2 hr
    · obtain ⟨hs, he⟩ := exec_slot_inert hi hw hf (fun g e => hd ⟨g, e⟩)
      rw [he, hs]
      rfl

/-! ### The slot arbiter (R13) -/

theorem Part.fillSlot_normal {p : Part} {x : Post} {rest : List Post} (hl : p.listening = true)
    (hk : p.ring.slot.kind = 0) (hu : p.ring.urgent = []) (hn : p.ring.normal = x :: rest) :
    p.fillSlot = { p with ring := { p.ring with slot := p.launch x, normal := rest, left := p.ring.left + 1 } } := by
  have hi : p.inert = false := by simpa [Part.listening] using hl
  simp [Part.fillSlot, hi, hk, hu, hn]

theorem Part.fillSlot_idle {p : Part} (hu : p.ring.urgent = []) (hn : p.ring.normal = []) : p.fillSlot = p := by
  unfold Part.fillSlot
  rw [hu, hn]
  exact ite_self p

theorem Part.fillSlot_occupied {p : Part} (hk : p.ring.slot.kind ≠ 0) : p.fillSlot = p := by
  unfold Part.fillSlot
  rw [if_pos (by simpa using .inr hk)]

/-- Settles O12: the arbiter looks at the slot, then at the urgent and at the normal queue. -/
theorem emptySlotsAreFilledAndOthersForwarded : Obligations.EmptySlotsAreFilledAndOthersForwarded := by
  refine ⟨fun s hl => ⟨fun hk x rest hu => ?_, fun hk hu x rest hn => ?_, fun _ hu hn => ?_, fun hk => ?_,
    fun x => ⟨Packet.sound_seal _ _, rfl, rfl⟩⟩, fun s f hl hs hp => exec_slotForward hl hs hp⟩
  all_goals apply State.onPart_eq (f := Part.fillSlot)
  · exact Part.fillSlot_urgent hl hk hu
  · exact Part.fillSlot_normal hl hk hu hn
  · exact Part.fillSlot_idle hu hn
  · exact Part.fillSlot_occupied hk

/-! ### Frames that reach no block (R5 to R7, R21) -/

/-- No live part has the broadcast number for its node number (R3). -/
theorem Part.node_ne_broadcast {p : Part} (hl : p.listening = true) : p.node ≠ Config.broadcast := by
  intro hb
  have hn : p.ring.straps.toNat = 1023 := by
    have e := congrArg BitVec.toNat hb
    have hlt := p.ring.straps.isLt
    rw [Part.node, BitVec.toNat_setWidth, Nat.mod_eq_of_lt (by omega)] at e
    exact e
  have hs : p.ring.straps = 1023 := BitVec.eq_of_toNat_eq hn
  simp [Part.listening, Part.inert, Part.forwarder, hs] at hl

theorem Part.addressed_iff {p : Part} {pkt : Packet} :
    p.addressed pkt = true ↔ pkt.dst = p.node ∧ pkt.taken = false := by
  simp [Part.addressed]

/-- A frame that is neither broadcast nor addressed to the part goes on (R4). -/
theorem Part.deliver_unaddressed {k : Kind} {pkt : Packet} {act : Part → Part} {p : Part} (hl : p.listening = true)
    (hk : k.sent? = none) (hb : isBroadcast k = true → pkt.dst ≠ 1023) (ha : p.addressed pkt = false) :
    p.deliver k pkt act = p.passOn k pkt := by
  have hv : p.verdict k pkt = .pass := by
    rw [Part.verdict_received hl hk]
    cases k <;> simp_all [Kind.sent?, isBroadcast, Part.kindVerdict, Part.broadcastVerdict, Part.unicastVerdict,
      Config.broadcast]
  rw [Part.deliver, hv, Part.passOn]

theorem isBroadcast_iff {k : Kind} : isBroadcast k = true ↔ k = .pitch ∨ k = .tick ∨ k = .sighting := by
  cases k <;> simp [isBroadcast]

/-- A broadcast kind addressed to the part is left untaken (R6). -/
theorem Part.deliver_broadcast_addressed {k : Kind} {pkt : Packet} {act : Part → Part} {p : Part} (h : p.receives pkt)
    (hb : isBroadcast k = true) : p.deliver k pkt act = (p.passOn k pkt).count .untaken := by
  have hne : pkt.dst ≠ Config.broadcast := h.2.1 ▸ Part.node_ne_broadcast h.1
  have hv : p.verdict k pkt = .untaken := by
    rcases isBroadcast_iff.mp hb with rfl | rfl | rfl <;> rw [Part.verdict_received h.1 rfl] <;>
      simp [Part.kindVerdict, Part.broadcastVerdict, hne, Part.addressed_of_receives h]
  rw [Part.deliver, hv, Part.passOn]

/-- An Answer that fails its checks is left untaken (R7). -/
theorem Part.deliver_answer_unsound {pkt : Packet} {act : Part → Part} {p : Part} (h : p.receives pkt)
    (hc : answerChecks pkt = false) : p.deliver .answer pkt act = (p.passOn .answer pkt).count .untaken := by
  have hv : p.verdict .answer pkt = .untaken := by
    rw [Part.verdict_received h.1 rfl]
    simp [Part.kindVerdict, Part.unicastVerdict, Part.addressed_of_receives h, hc]
  rw [Part.deliver, hv, Part.passOn]

/-- In CONFIG an Answer or Bay Report that passes its checks is taken and discarded (R21). -/
theorem Part.deliver_config {k : Kind} {pkt : Packet} {act : Part → Part} {p : Part} (h : p.receives pkt)
    (hm : p.mode = .config)
    (hk : (k = .bayReport ∧ reportChecks pkt = true) ∨ (k = .answer ∧ answerChecks pkt = true)) :
    p.deliver k pkt act = (p.takeOn k pkt).count .unmatched := by
  have hv : p.verdict k pkt = .discard := by
    rcases hk with ⟨rfl, hc⟩ | ⟨rfl, hc⟩ <;> rw [Part.verdict_received h.1 rfl] <;>
      simp [Part.kindVerdict, Part.unicastVerdict, Part.addressed_of_receives h, hc, hm]
  rw [Part.deliver, hv, Part.takeOn]

/-- A broadcast Sighting in CONFIG, and a broadcast Pitch outside RUN, go on unread (R21). -/
theorem Part.deliver_sighting_config {pkt : Packet} {act : Part → Part} {p : Part} (h : p.hears pkt)
    (hm : p.mode = .config) : p.deliver .sighting pkt act = p.passOn .sighting pkt := by
  have hv : p.verdict .sighting pkt = .pass := by
    rw [Part.verdict_received h.1 rfl]
    simp [Part.kindVerdict, Part.broadcastVerdict, h.2, hm]
  rw [Part.deliver, hv, Part.passOn]

theorem Part.deliver_pitch_stopped {pkt : Packet} {act : Part → Part} {p : Part} (h : p.hears pkt)
    (hm : p.mode ≠ .run) : p.deliver .pitch pkt act = p.passOn .pitch pkt := by
  have hv : p.verdict .pitch pkt = .pass := by
    rw [Part.verdict_received h.1 rfl]
    simp [Part.kindVerdict, Part.broadcastVerdict, h.2, hm]
  rw [Part.deliver, hv, Part.passOn]

/-- Settles O13: by the verdict on each kind, at a frame not addressed to the part, at one it may not take, and in the
modes in which it hands nothing on. -/
theorem framesNotHandedOnReachNoBlock : Obligations.FramesNotHandedOnReachNoBlock := by
  refine ⟨⟨fun s i k pkt hl hw hr hb ha => ?unaddressed, fun s pkt h => ⟨fun i k hr hb => ?broadcast,
    fun hc => ?answer⟩⟩,
    fun s i k pkt hw hr hm h hk => ?config, fun s pkt h hm => ?sighting, fun s pkt h hm => ?pitch⟩
  case unaddressed =>
    obtain ⟨hk, act, he⟩ := exec_of_received hw hr
    have ha' : s.part.addressed pkt = false := by
      rw [← Bool.not_eq_true, Part.addressed_iff]
      rintro ⟨hd, ht⟩
      rcases ha with ha | ha
      · exact ha hd
      · rw [ht] at ha; cases ha
    exact (he s).trans (State.onPart_eq (Part.deliver_unaddressed hl hk hb ha'))
  case broadcast =>
    cases i <;> cases hr <;> cases hb
    case tick => exact State.onPart_eq (Part.deliver_broadcast_addressed h rfl)
    case pitch => exact State.onPart_eq (Part.deliver_broadcast_addressed h rfl)
    case sighting => exact State.onPart_eq (Part.deliver_broadcast_addressed h rfl)
  case answer => exact State.onPart_eq (Part.deliver_answer_unsound h hc)
  case config =>
    rcases hk with rfl | ⟨rfl, hc⟩
    · obtain ⟨hc, act, he⟩ := exec_of_received_report hw hr
      exact (he s).trans (State.onPart_eq (Part.deliver_config h hm (.inl ⟨rfl, hc⟩)))
    · obtain ⟨-, act, he⟩ := exec_of_received hw hr
      exact (he s).trans (State.onPart_eq (Part.deliver_config h hm (.inr ⟨rfl, hc⟩)))
  case sighting => exact State.onPart_eq (Part.deliver_sighting_config h hm)
  case pitch => exact State.onPart_eq (Part.deliver_pitch_stopped h hm)

/-! ### The part's own frames come round (R8, R10) -/

/-- A delivered own frame is stripped (R8). -/
theorem Part.ownKind_delivered {kind : SentKind} {pkt : Packet} {p : Part} (hl : p.listening = true)
    (hn : pkt.src = p.node) (hd : pkt.dst = 1023 ∨ pkt.taken = true) : p.ownKind kind pkt = p.putSlot emptyFrame := by
  have hi : p.inert = false := by simpa [Part.listening] using hl
  have hs : kind.kind.sent? = some kind := by cases kind <;> rfl
  have hv : p.verdict kind.kind pkt = .strip kind false := by
    have hu : (decide (pkt.dst ≠ Config.broadcast) && !pkt.taken) = false := by
      rcases hd with hd | hd <;> simp [hd, Config.broadcast]
    simp only [Part.verdict, hi, hn, hs, hu, Bool.false_eq_true, if_false, if_true]
  rw [Part.ownKind, Part.deliver, hv]
  rfl

/-- A frame posted again joins the normal queue, or the bay's pending list when that is full (R10, R85). -/
theorem repost_eq {b : Nat} {x : Post} {p : Part} (hk : x.kind ≠ .steer) :
    p.repost b x =
      if p.ring.normal.length < 48 then p.posted x
      else p.modBuild b (fun y => { y with pending := y.pending ++ [x] }) := by
  by_cases hq : p.ring.normal.length < 48
  · rw [Part.repost, Part.post_room hk hq, if_pos hq]
  · rw [Part.repost, Part.post_full hk hq, if_neg hq]

/-- A Bay Command handed back to its bay: a live RETURN or RELEASE is posted again (R10). -/
theorem bayCommandReturned_live {off : LaneAction} {pkt : Packet} {p : Part} {b : Nat}
    (hb : p.bayOfNode pkt.dst.toNat = some b)
    (h : (pkt.u8 6 = 2 ∧ ∃ c, c ∈ returnIds pkt.payload ∧ p.isReturning b c = true) ∨
      (pkt.u8 6 = 3 ∧ (p.build b).state = .clearing)) :
    p.bayCommandReturned off pkt = p.repost b (commandReturned pkt) := by
  rw [Part.bayCommandReturned, hb]
  rcases h with ⟨hc, c, hm, hr⟩ | ⟨hc, hst⟩
  · have hany : (returnIds pkt.payload).any (fun c => p.isReturning b c) = true := List.any_eq_true.mpr ⟨c, hm, hr⟩
    simp [hc, hany]
  · simp [hc, hst]

/-- A Bay Command handed back that matches nothing is dropped (R10). -/
theorem bayCommandReturned_dead {off : LaneAction} {pkt : Packet} {p : Part} {b : Nat}
    (hb : p.bayOfNode pkt.dst.toNat = some b)
    (h : (pkt.u8 6 = 2 ∧ ∀ c ∈ returnIds pkt.payload, p.isReturning b c = false) ∨
      (pkt.u8 6 = 3 ∧ (p.build b).state ≠ .clearing) ∨ (pkt.u8 6 = 1 ∧ p.stepAwaited b (pkt.u16 7) = false)) :
    p.bayCommandReturned off pkt = p := by
  rw [Part.bayCommandReturned, hb]
  rcases h with ⟨hc, hr⟩ | ⟨hc, hst⟩ | ⟨hc, hst⟩
  · have hany : (returnIds pkt.payload).any (fun c => p.isReturning b c) = false := by
      rw [List.any_eq_false]
      exact fun c hm => by simp [hr c hm]
    simp [hc, hany]
  · simp [hc, hst]
  · simp [hc, hst]

/-- Settles O15: the strip changes nothing that the bay's answer to its returned command looks at. -/
theorem ownFramesAreStrippedOrReposted : Obligations.OwnFramesAreStrippedOrReposted := by
  refine ⟨fun s kind pkt hl hn hd => State.onPart_eq (Part.ownKind_delivered hl hn hd),
    fun s pkt b h hb => ⟨fun hlive => ?_, fun hdead => ?_⟩⟩ <;>
    rw [exec_bayCommandUndelivered] <;> apply State.onPart_eq <;> rw [Part.ownKind_returned h]
  · rw [show (s.part.stripCounted .bayCommand).handBack takeLaneOut .bayCommand pkt = _ from
      bayCommandReturned_live hb hlive, repost_eq (by simp [commandReturned])]
    rfl
  · exact bayCommandReturned_dead hb hdead

/-! ### What comes before a request's own part (R18, R20) -/

/-- A full normal queue leaves a request untaken (R18). -/
theorem Part.deliver_request_full {pkt : Packet} {act : Part → Part} {p : Part} (h : p.receives pkt)
    (hq : ¬ p.ring.normal.length < 48) :
    p.deliver .adminRequest pkt act = (p.passOn .adminRequest pkt).count .deferred := by
  have hv : p.verdict .adminRequest pkt = .deferred := by
    rw [Part.verdict_received h.1 rfl]
    simp [Part.kindVerdict, Part.addressed_of_receives h, Part.normalFree, Config.normalSize, hq]
  rw [Part.deliver, hv, Part.passOn]

/-- A node in neither manager entry may not send requests while one is set (R20). -/
theorem admits_eq_false {p : Part} {src : Nat} (hset : p.manager 1 ≠ 0 ∨ p.manager 2 ≠ 0)
    (hne : ∀ m, m = 1 ∨ m = 2 → p.manager m = 0 ∨ p.manager m ≠ src) : p.admits src = false := by
  have h1 := hne 1 (.inl rfl)
  have h2 := hne 2 (.inr rfl)
  rw [← Bool.not_eq_true]
  simp only [Part.admits, Bool.or_eq_true, Bool.and_eq_true, decide_eq_true_eq]
  omega

/-- A taken request that the manager check or its own part refuses at once: the reply is posted, and nothing else
happens. -/
theorem Part.takeRequest_refused {pkt : Packet} {body : Part → Reply} {st : Status} {p : Part}
    (h : (if p.admits pkt.src.toNat then body (p.replied pkt .ok []) else refuse .notManager (p.replied pkt .ok [])) =
      refuse st (p.replied pkt .ok [])) :
    (p.takeOn .adminRequest pkt).takeRequest pkt body = p.replied pkt st [] := by
  have hr : (p.takeOn .adminRequest pkt).takeRequest pkt body =
      (fun r : Reply => r.part.modNormal (fun q => q.set p.ring.normal.length (replyTo pkt r.status r.data)))
        (if p.admits pkt.src.toNat then body (p.replied pkt .ok []) else refuse .notManager (p.replied pkt .ok [])) :=
          rfl
  rw [hr, h]
  simp [refuse, Part.replied, Part.modNormal, Part.takeOn]

/-- A code that is no request code of Table 1-3 names no request. -/
theorem RequestCode.ofCode_eq_none {c : Byte} (h : ∀ r : RequestCode, c ≠ r.code) : RequestCode.ofCode c = none :=
  List.find?_eq_none.mpr fun r _ => by simpa using (h r).symm

/-- Settles O18: the verdict refuses for the queue, and the two other checks come before the request's own part. -/
theorem requestsRefusedBeforeTheirOwnPart : Obligations.RequestsRefusedBeforeTheirOwnPart := by
  refine ⟨fun s i pkt hw hr h => ⟨fun hq => ?full, fun hq hset hne => ?manager⟩, fun s pkt hc h hq ha => ?unknown⟩
  case full =>
    obtain ⟨-, act, he⟩ := exec_of_received hw hr
    exact (he s).trans (State.onPart_eq (Part.deliver_request_full h hq))
  case manager =>
    obtain ⟨body, he⟩ := exec_of_received_request hw hr
    refine (he s).trans (State.onPart_eq ?_)
    rw [Part.deliver_request h hq]
    exact Part.takeRequest_refused (by rw [admits_eq_false hset hne]; rfl)
  case unknown =>
    rw [exec_badRequest (RequestCode.ofCode_eq_none hc)]
    refine State.onPart_eq ?_
    rw [Part.deliver_request h hq]
    exact Part.takeRequest_refused (by rw [ha]; rfl)

end Sys2Proof.Machine

namespace Sys2Proof.Machine

/-! ### What a command's event does, once it reaches its block -/

/-- A Bay Report from an in-service bay reaches its block (R7, R40). -/
theorem exec_report {i : Instr} {code : ReportCode} {pkt : Packet} {act : Nat → Packet → Part → Part} {s : State}
    {b : Nat} {q : Part} (he : ∀ s, exec i s = s.onReport code pkt act) (h : s.part.receivesReport code pkt b)
    (hq : act b pkt (s.part.takeOn .bayReport pkt) = q) : exec i s = .next { s with part := q } := by
  obtain ⟨hw, hr, hm, hb⟩ := h
  have hbay : (s.part.takeOn .bayReport pkt).reportBay pkt.src.toNat = some b := hb
  rw [he, State.onReport, Packet.withCode_of_wfReport hw]
  apply State.onPart_eq
  rw [Part.deliver_report hr hm (reportChecks_of_wfReport hw), Part.onBay, hbay]
  exact hq

/-- An expiry is taken by its block while RESETN is high (R23). -/
theorem exec_expiry {i : Instr} {f : Part → Part} {s : State} {q : Part} (he : ∀ s, exec i s = s.onExpiry f)
    (h : s.part.ring.resetHeld = false) (hq : f s.part = q) : exec i s = .next { s with part := q } :=
  (he s).trans (State.onPart_eq (by rw [h]; exact hq))

/-- A Sighting read outside CONFIG reaches the Carrier Tracker (R6, R21). -/
theorem exec_sighting_heard {s : State} {pkt : Packet} (h : s.part.hears pkt) (hm : s.part.mode ≠ .config) :
    exec (.sighting pkt) s =
      .next { s with part := (s.part.passOn .sighting pkt).sight takeLaneOut (sightOf pkt) } :=
  State.onPart_eq (Part.deliver_sighting h hm)

/-- An Answer that passes its checks outside CONFIG reaches the Call Unit (R7, R21). -/
theorem exec_answer_taken {s : State} {pkt : Packet} (h : s.part.receives pkt) (hm : s.part.mode ≠ .config)
    (hc : answerChecks pkt = true) :
    exec (.answer pkt) s = .next { s with part := (s.part.takeOn .answer pkt).takeAnswer takeLaneOut pkt } :=
  State.onPart_eq (Part.deliver_answer h hm hc)

/-- A request whose own part answers: what it leaves, with the reply filled in (R19). -/
theorem Part.adminRequest_answered {code : RequestCode} {pkt : Packet} {body : Packet → Part → Reply} {p q : Part}
    {st : Status} {data : List Byte} (h : p.receivesRequest code pkt)
    (hb : body pkt (p.replied pkt .ok []) = ⟨st, data, q⟩) :
    p.adminRequest code pkt body = q.withReply p pkt st data := by
  have hr : p.adminRequest code pkt body =
      (body pkt (p.replied pkt .ok [])).part.withReply p pkt (body pkt (p.replied pkt .ok [])).status
        (body pkt (p.replied pkt .ok [])).data := Part.adminRequest_taken h
  rw [hr, hb]

/-- A request that changes other things than the Ring Port: they change, and the reply is posted (R19). -/
theorem Part.adminRequest_changed {code : RequestCode} {pkt : Packet} {body : Packet → Part → Reply} {p q : Part}
    {st : Status} {data : List Byte} (h : p.receivesRequest code pkt) (hq : q.ring = p.ring)
    (hb : body pkt (p.replied pkt .ok []) = ⟨st, data, q.replied pkt .ok []⟩) :
    p.adminRequest code pkt body = q.replied pkt st data := by
  rw [Part.adminRequest_answered h hb]
  simp [Part.withReply, Part.replied, Part.modNormal, Part.takeOn, ← hq]

section Requests

variable {i : Instr} {code : RequestCode} {pkt : Packet} {body : Packet → Part → Reply} {s : State} {st : Status}
  {data : List Byte} (he : ∀ s, exec i s = s.onRequest code pkt body) (h : s.part.receivesRequest code pkt)
include he h

/-- A request that only posts its reply. -/
theorem exec_request_unchanged
    (hb : body pkt (s.part.replied pkt .ok []) = ⟨st, data, s.part.replied pkt .ok []⟩) :
    exec i s = .next { s with part := s.part.replied pkt st data } :=
  (he s).trans (State.onPart_eq (Part.adminRequest_unchanged h hb))

/-- A request that changes other things than the Ring Port. -/
theorem exec_request_changed {q : Part} (hq : q.ring = s.part.ring)
    (hb : body pkt (s.part.replied pkt .ok []) = ⟨st, data, q.replied pkt .ok []⟩) :
    exec i s = .next { s with part := q.replied pkt st data } :=
  (he s).trans (State.onPart_eq (Part.adminRequest_changed h hq hb))

/-- A request, whatever its own part does. -/
theorem exec_request_answered {q : Part} (hb : body pkt (s.part.replied pkt .ok []) = ⟨st, data, q⟩) :
    exec i s = .next { s with part := q.withReply s.part pkt st data } :=
  (he s).trans (State.onPart_eq (Part.adminRequest_answered h hb))

end Requests

/-! ### Carriers steered and not arrived (R9, R164, R171) -/

/-- An undelivered Steer of a carrier still STEERED to its bay ends the steer (R9). -/
theorem steerReturned_steered {off : LaneAction} {pkt : Packet} {p : Part} {b i r : Nat} {x : Timer}
    (h : (p.carrier (pkt.u16 6)).state = .steered b i r x) (hb : b = pkt.u8 8) :
    p.steerReturned off pkt = p.steerEnds off (pkt.u16 6) b i r := by
  rw [Part.steerReturned, h]
  exact if_pos hb

/-- An undelivered Steer that matches no carrier is dropped (R9). -/
theorem steerReturned_unmatched {off : LaneAction} {pkt : Packet} {p : Part}
    (h : ∀ i r x, (p.carrier (pkt.u16 6)).state ≠ .steered (pkt.u8 8) i r x) : p.steerReturned off pkt = p := by
  unfold Part.steerReturned
  split
  · next b i r x hs => exact if_neg fun hb => h i r x (by rw [hs, hb])
  · rfl

theorem confirmExpires_expired {off : LaneAction} {c b i r : Nat} {p : Part}
    (h : (p.carrier c).state = .steered b i r .expired) : p.confirmExpires off c = p.steerEnds off c b i r := by
  rw [Part.confirmExpires, h]

/-- A confirm timer that has not expired expires nothing (R171). -/
theorem confirmExpires_idle {off : LaneAction} {c : Nat} {p : Part}
    (h : ∀ b i r, (p.carrier c).state ≠ .steered b i r .expired) : p.confirmExpires off c = p := by
  unfold Part.confirmExpires
  split
  · next b i r hs => exact absurd hs (h b i r)
  · rfl

/-- Settles O43: both events end the steer of the carrier they match. -/
theorem steersThatEndReleaseTheirRecords : Obligations.SteersThatEndReleaseTheirRecords := by
  refine ⟨fun s pkt h => ⟨fun b i r x hs hb _ => ?_, fun hs => ?_⟩, fun s c h => ⟨fun b i r hs _ => ?_, fun hs => ?_⟩⟩
  · refine ⟨_, State.onPart_eq ((Part.ownKind_returned h).trans (steerReturned_steered hs hb)), ?_⟩
    exact steerEnds_steerEnded _ _ _ _ _
  · exact State.onPart_eq ((Part.ownKind_returned h).trans (steerReturned_unmatched hs))
  · exact ⟨_, exec_expiry (exec_steerConfirmTimeout c) h (confirmExpires_expired hs), steerEnds_steerEnded _ _ _ _ _⟩
  · exact exec_expiry (exec_steerConfirmTimeout c) h (confirmExpires_idle hs)

/-! ### Sightings by the state of the carrier's entry (R157) -/

theorem carrierId_iff {c : Nat} : carrierId c = true ↔ 1 ≤ c ∧ c ≤ 4095 := by simp [carrierId]

theorem not_carrierId_iff {c : Nat} : carrierId c = false ↔ c = 0 ∨ 4095 < c := by
  rw [← Bool.not_eq_true, carrierId_iff]
  omega

theorem articleRead_empty {g : Sight} (h : g.read = 0) : g.articleRead = .empty := if_pos h

theorem articleRead_article {g : Sight} (h₁ : 1 ≤ g.read) (h₂ : g.read ≤ 8191) : g.articleRead = .article g.read := by
  rw [Sight.articleRead, if_neg (by omega), if_pos h₂]

theorem articleRead_noRead {g : Sight} (h : 8191 < g.read) : g.articleRead = .noRead := by
  rw [Sight.articleRead, if_neg (by omega), if_neg (by omega)]

theorem articleRead_empty_iff {g : Sight} : g.articleRead = .empty ↔ g.read = 0 := by
  unfold Sight.articleRead
  split
  · next h => simp [h]
  · next h => split <;> simp [h]

variable {p : Part} {g : Sight} {c : Nat}

theorem sight_nobody {off : LaneAction} (hid : carrierId g.carrier = false) :
    p.sight off g = p.count .ignoredSightings := by
  simp [Part.sight, hid]

theorem sight_enRoute {off : LaneAction} {b i : Nat} (hid : carrierId g.carrier = true)
    (hs : (p.carrier g.carrier).state = .enRoute b i) : p.sight off g = p.sightLine off g.carrier b i g := by
  simp [Part.sight, hid, hs]

theorem sight_loose {off : LaneAction} (hid : carrierId g.carrier = true)
    (hs : (p.carrier g.carrier).state = .free ∨ (p.carrier g.carrier).state = .surplus) :
    p.sight off g = p.sightLoose off g.carrier g := by
  rcases hs with hs | hs <;> simp [Part.sight, hid, hs]

theorem sight_reject {off : LaneAction} (hid : carrierId g.carrier = true)
    (hs : (p.carrier g.carrier).state = .reject) :
    p.sight off g = if g.articleRead = .empty then p.setCarrier g.carrier {} else p := by
  simp [Part.sight, hid, hs]

theorem sight_resting {off : LaneAction} (hid : carrierId g.carrier = true)
    (hs : (∃ b r role, (p.carrier g.carrier).state = .held b r role) ∨
      ∃ b r role, (p.carrier g.carrier).state = .returning b r role) :
    p.sight off g = p.count .ignoredSightings := by
  rcases hs with ⟨b, r, role, hs⟩ | ⟨b, r, role, hs⟩ <;> simp [Part.sight, hid, hs]

/-- A STEERED carrier's steer ends first; what follows goes by the entry that leaves (R164). -/
theorem sight_steered {off : LaneAction} {b i r : Nat} {x : Timer} (hid : carrierId g.carrier = true)
    (hs : (p.carrier g.carrier).state = .steered b i r x) :
    (((p.steerEnds off g.carrier b i r).carrier g.carrier).state = .enRoute b i →
      p.sight off g = (p.steerEnds off g.carrier b i r).sightLine off g.carrier b i g) ∧
    (((p.steerEnds off g.carrier b i r).carrier g.carrier).state = .surplus →
      p.sight off g = (p.steerEnds off g.carrier b i r).sightLoose off g.carrier g) := by
  refine ⟨fun he => ?_, fun he => ?_⟩ <;> simp [Part.sight, hid, hs, he]

/-- Settles O44: the entries of a REJECT, a HELD and a RETURNING carrier. -/
theorem sightingsOfRejectAndRestingCarriers : Obligations.SightingsOfRejectAndRestingCarriers := by
  intro s pkt h hm
  rw [exec_sighting_heard h hm]
  refine ⟨fun h₁ h₂ hs => ?reject, fun h₁ h₂ hs => ?resting, fun hc => ?nobody⟩
  case reject =>
    rw [sight_reject (carrierId_iff.mpr ⟨h₁, h₂⟩) hs]
    refine ⟨fun hr => ?_, fun hr => ?_⟩
    · rw [if_pos (articleRead_empty_iff.mpr hr)]
      rfl
    · rw [if_neg (mt articleRead_empty_iff.mp hr)]
  case resting => rw [sight_resting (carrierId_iff.mpr ⟨h₁, h₂⟩) hs]
  case nobody => rw [sight_nobody (not_carrierId_iff.mpr hc)]

/-! ### Weighing (R158, R159) -/

theorem weighable_iff {article : Nat} : p.weighable g article = true ↔
    g.arch ≠ 0 ∧ p.scale g.arch = true ∧ g.gross ≠ 65535 ∧ g.ctype ≤ 3 ∧ (p.article article).valid = true := by
  simp [Part.weighable]
  tauto

theorem inBand_iff {a : Article} {floor net : Nat} : inBand a floor net = true ↔
    (if a.nominal * a.tolerance / 64 + floor < a.nominal then
      a.nominal - (a.nominal * a.tolerance / 64 + floor) else 0) ≤ net ∧
      net ≤ a.nominal + (a.nominal * a.tolerance / 64 + floor) := by
  have stops : ∀ n m : Nat, (if m < n then n - m else 0) = n - m := fun n m => by split <;> omega
  simp only [inBand, Bool.and_eq_true, decide_eq_true_eq]
  simp only [allowance, stops]

theorem weighing_unweighed {article : Nat} (h : p.weighable g article = false) : p.weighing g article = .unweighed := by
  simp [Part.weighing, h]

theorem weighing_pass {article : Nat} (h : p.weighable g article = true)
    (hb : inBand (p.article article) p.floorAllowance (g.gross - p.tare g.ctype) = true) :
    p.weighing g article = .pass (g.gross - p.tare g.ctype) := by
  simp [Part.weighing, h, hb]

theorem weighing_fail {article : Nat} (h : p.weighable g article = true)
    (hb : inBand (p.article article) p.floorAllowance (g.gross - p.tare g.ctype) = false) :
    p.weighing g article = .fail := by
  simp [Part.weighing, h, hb]

/-- A Sighting that is not weighed counts no light reading (R158). -/
theorem countLight_unweighed {article : Nat} (h : p.weighable g article = false) : p.countLight g article = p := by
  simp [Part.countLight, h]

/-- A weighed reading below the tare counts as light (R158). -/
theorem countLight_weighed {article : Nat} (h : p.weighable g article = true) :
    p.countLight g article = if g.gross < p.tare g.ctype then p.count .lightReadings else p := by
  simp [Part.countLight, h]

/-- Counting a light reading changes no carrier. -/
@[simp] theorem carrier_countLight (article k : Nat) : (p.countLight g article).carrier k = p.carrier k := by
  unfold Part.countLight
  split <;> rfl

@[simp] theorem carrierWeight_countLight (article : Nat) (x : Carrier) :
    (p.countLight g article).carrierWeight x = p.carrierWeight x := by
  unfold Part.countLight
  split <;> rfl

theorem carrierWeight_eq (x : Carrier) :
    p.carrierWeight x = match x.net with | some n => n | none => (p.article x.article).nominal := by
  rw [Part.carrierWeight]
  cases x.net <;> rfl

/-! ### Sightings of loose carriers (R165) -/

theorem sightSurplus_unknown {off : LaneAction} (h : (p.carrier c).article = 0) : p.sightSurplus off c g = p := by
  rw [Part.sightSurplus, if_pos h]

/-- A SURPLUS carrier that is not weighed is offered for a claim. -/
theorem sightSurplus_unweighed {off : LaneAction} (h : (p.carrier c).article ≠ 0)
    (hw : p.weighable g (p.carrier c).article = false) : p.sightSurplus off c g = p.claim off c g := by
  simp only [Part.sightSurplus, if_neg h, weighing_unweighed hw, countLight_unweighed hw]

/-- A SURPLUS carrier outside its article's band becomes REJECT. -/
theorem sightSurplus_fail {off : LaneAction} (h : (p.carrier c).article ≠ 0)
    (hw : p.weighable g (p.carrier c).article = true)
    (hb : inBand (p.article (p.carrier c).article) p.floorAllowance (g.gross - p.tare g.ctype) = false) :
    p.sightSurplus off c g =
      ((p.countLight g (p.carrier c).article).setCarrier c { p.carrier c with state := .reject, net := none }).count
        .weightFails := by
  simp only [Part.sightSurplus, if_neg h, weighing_fail hw hb]

/-- A SURPLUS carrier inside its article's band keeps the weight and is offered for a claim. -/
theorem sightSurplus_pass {off : LaneAction} (h : (p.carrier c).article ≠ 0)
    (hw : p.weighable g (p.carrier c).article = true)
    (hb : inBand (p.article (p.carrier c).article) p.floorAllowance (g.gross - p.tare g.ctype) = true) :
    p.sightSurplus off c g =
      ((p.countLight g (p.carrier c).article).setCarrier c
        { p.carrier c with net := some (g.gross - p.tare g.ctype) }).claim off c g := by
  simp only [Part.sightSurplus, if_neg h, weighing_pass hw hb]

/-- Settles O45: by the entry's state, by what the Sighting read, and by the weighing of a SURPLUS carrier. -/
theorem sightingsFollowTheEntry : Obligations.SightingsFollowTheEntry := by
  refine ⟨fun s pkt h hm => ?entry, fun p c b i g hs => ?line, fun p c g hs => ?loose, fun p c g hs => ?surplus⟩
  case entry =>
    intro c g base h₁ h₂
    have hid : carrierId g.carrier = true := carrierId_iff.mpr ⟨h₁, h₂⟩
    have he : exec (.sighting pkt) s = .next { s with part := base.sight takeLaneOut g } := exec_sighting_heard h hm
    rw [he]
    refine ⟨fun b i hs => ?_, fun hs => ?_, fun b i r x hs _ => ?_⟩
    · rw [sight_enRoute (p := base) hid hs]
    · rw [sight_loose (p := base) hid hs]
    · obtain ⟨hline, hloose⟩ := sight_steered (off := takeLaneOut) (p := base) hid hs
      exact ⟨_, _, rfl, steerEnds_steerEnded _ _ _ _ _, hline, hloose⟩
  case line =>
    refine ⟨fun hr => ?_, fun h₁ h₂ hne => ?_, fun hr => ?_⟩
    · rw [Part.sightLine, articleRead_empty hr]
      exact withdraw_withdrawn _ _ _ _ _ _ _
    · rw [Part.sightLine, articleRead_article h₁ h₂]
      dsimp only
      rw [if_neg hne]
      exact withdraw_withdrawn _ _ _ _ _ _ _
    · rw [Part.sightLine, articleRead_noRead hr]
      exact countLap_lapCounted _ _ _ _ _
  case loose =>
    refine ⟨fun hr => ?_, fun h₁ h₂ => ?_, fun hr => ?_⟩
    · rw [Part.sightLoose, articleRead_empty hr]
      exact Part.Same.refl _
    · rw [Part.sightLoose, articleRead_article h₁ h₂]
      exact ⟨_, Part.Same.refl _, rfl⟩
    · rw [Part.sightLoose, articleRead_noRead hr]
      refine ⟨fun hf => ?_, fun hf => ?_⟩
      · exact if_neg (by rw [hf]; simp)
      · exact if_pos hf
  case surplus =>
    intro x a tare net A seen weighed inside t
    have hweighed : weighed ↔ p.weighable g x.article = true := weighable_iff.symm
    have hinside : inside ↔ inBand a p.floorAllowance net = true := inBand_iff.symm
    have hseen : p.weighable g x.article = true → p.countLight g x.article = seen := countLight_weighed
    simp only [hweighed, hinside, Bool.not_eq_true]
    refine ⟨sightSurplus_unknown, sightSurplus_unweighed, fun ha hw hb => ?_, fun ha hw hb => ?_⟩
    · rw [← hseen hw]
      exact .of_eq (sightSurplus_fail ha hw hb)
    · rw [← hseen hw]
      exact ⟨_, Part.Same.refl _, sightSurplus_pass ha hw hb⟩

/-! ### Sightings that read the article of a line carrier (R158, R161 to R163) -/

/-- A read of the carrier's own article is its line's handling (R161 step 4). -/
theorem sightLine_match {off : LaneAction} {b i : Nat} (hr : g.read = (p.carrier c).article) (h₁ : 1 ≤ g.read)
    (h₂ : g.read ≤ 8191) : p.sightLine off c b i g = p.sightMatch off c b i g := by
  rw [Part.sightLine, articleRead_article h₁ h₂]
  exact if_pos hr

/-- What follows the weighing: the lap, then a steering attempt at the bay's steering arch. -/
theorem carriesOn_of_lap (c b i arch : Nat) (p : Part) :
    p.carriesOn c b i arch
      (if ((p.countLap takeLaneOut c b i arch).carrier c).state = .enRoute b i &&
          (p.countLap takeLaneOut c b i arch).atSteeringArch b arch then
        (p.countLap takeLaneOut c b i arch).steerAttempt takeLaneOut c b i
      else p.countLap takeLaneOut c b i arch) := by
  refine ⟨_, countLap_lapCounted _ _ _ _ _, fun hs ha hb => ?_, fun hn => ?_⟩
  · rw [if_pos (by simp [hs, Part.atSteeringArch, ha, hb])]
  · rw [if_neg]
    simp only [Part.atSteeringArch, Bool.and_eq_true, decide_eq_true_eq]
    rintro ⟨hs, ha, hb⟩
    rcases hn with hn | hn | hn
    · exact hn hs
    · exact ha hn
    · exact hn hb

theorem sightMatch_unweighed {b i : Nat} (hw : p.weighable g (p.carrier c).article = false) :
    p.carriesOn c b i g.arch (p.sightMatch takeLaneOut c b i g) := by
  simp only [Part.sightMatch, weighing_unweighed hw, countLight_unweighed hw]
  exact carriesOn_of_lap c b i g.arch p

/-- Inside the band the net is stored, and the committed weight moves by its difference from what the carrier
counted. -/
theorem sightMatch_pass {b i : Nat} (hw : p.weighable g (p.carrier c).article = true)
    (hb : inBand (p.article (p.carrier c).article) p.floorAllowance (g.gross - p.tare g.ctype) = true) :
    (((p.countLight g (p.carrier c).article).weigh b (g.gross - p.tare g.ctype)
      ((p.countLight g (p.carrier c).article).carrierWeight (p.carrier c))).setCarrier c
        { p.carrier c with net := some (g.gross - p.tare g.ctype) }).carriesOn c b i g.arch
      (p.sightMatch takeLaneOut c b i g) := by
  simp only [Part.sightMatch, weighing_pass hw hb]
  exact carriesOn_of_lap c b i g.arch _

/-- Outside the band the carrier is withdrawn as REJECT. -/
theorem sightMatch_fail {b i : Nat} (hw : p.weighable g (p.carrier c).article = true)
    (hb : inBand (p.article (p.carrier c).article) p.floorAllowance (g.gross - p.tare g.ctype) = false) :
    (p.countLight g (p.carrier c).article).withdrawn c b i { state := .reject, article := (p.carrier c).article }
      .weightFails .weightFail (p.sightMatch takeLaneOut c b i g) := by
  simp only [Part.sightMatch, weighing_fail hw hb]
  exact withdraw_withdrawn _ _ _ _ _ _ _

/-- Settles O46: by the weighing's three outcomes. -/
theorem sightingsWeighLineCarriers : Obligations.SightingsWeighLineCarriers := by
  intro p c b i g hs hr h₁ h₂ x a tare net A old seen weighed inside t
  have hweighed : weighed ↔ p.weighable g x.article = true := weighable_iff.symm
  have hinside : inside ↔ inBand a p.floorAllowance net = true := inBand_iff.symm
  have hseen : p.weighable g x.article = true → p.countLight g x.article = seen := countLight_weighed
  have ht : t = p.sightMatch takeLaneOut c b i g := sightLine_match hr h₁ h₂
  simp only [hweighed, hinside, Bool.not_eq_true, ht]
  refine ⟨sightMatch_unweighed, fun hw hb => ?_, fun hw hb => ?_⟩
  · rw [← hseen hw]
    refine ⟨_, ?_, sightMatch_pass hw hb⟩
    have hold : (p.countLight g x.article).carrierWeight x = old :=
      (carrierWeight_countLight _ _).trans (carrierWeight_eq x)
    rw [← hold]
    exact Part.Same.refl _
  · rw [← hseen hw]
    exact sightMatch_fail hw hb

/-! ### Steering attempts (R169, R170) -/

theorem takeRecord_full {off : LaneAction} {b article : Nat}
    (h : (p.bayDir b).spur ≤ (p.build b).hold.length + (p.build b).reserved) :
    p.takeRecord off b article = .spur p := by
  simp [Part.takeRecord, Part.spurFull, h]

theorem takeRecord_dry {off : LaneAction} {b article : Nat}
    (h : (p.build b).hold.length + (p.build b).reserved < (p.bayDir b).spur) (hf : p.pool.free = []) :
    p.takeRecord off b article = .empty (p.exhausted off b article) := by
  simp [Part.takeRecord, Part.spurFull, Nat.not_le.mpr h, hf]

theorem takeRecord_head {off : LaneAction} {b article r : Nat} {rest : List Nat}
    (h : (p.build b).hold.length + (p.build b).reserved < (p.bayDir b).spur) (hf : p.pool.free = r :: rest) :
    p.takeRecord off b article = .granted r { p with pool := { p.pool with free := rest } } := by
  simp [Part.takeRecord, Part.spurFull, Nat.not_le.mpr h, hf]

/-- A frame joins the tail of the urgent queue (R12). -/
def Part.urgentPosted (x : Post) (p : Part) : Part :=
  { p with ring := { p.ring with urgent := p.ring.urgent ++ [x] } }

/-- A Steer is accepted by an urgent queue with room. -/
theorem Part.post_steer_room {x : Post} (hk : x.kind = .steer) (h : p.ring.urgent.length < 16) :
    p.post x = some (p.urgentPosted x) := by
  simp [Part.post, hk, Config.urgentSize, h, Part.urgentPosted]

theorem Part.post_steer_full {x : Post} (hk : x.kind = .steer) (h : ¬ p.ring.urgent.length < 16) :
    p.post x = none := by
  simp [Part.post, hk, Config.urgentSize, h]

@[simp] theorem build_freeHold (r k : Nat) (p : Part) : (p.freeHold r).build k = p.build k := rfl

theorem holdRec_freeHold (r k : Nat) (p : Part) : (p.freeHold r).holdRec k = if k = r then {} else p.holdRec k :=
  Part.holdRec_setRec r {} p k

/-- A record written and then freed is as one that is freed. -/
theorem freeHold_setRec (r : Nat) (v : HoldRecord) (p : Part) : ((p.setRec r v).freeHold r).Same (p.freeHold r) := by
  constructor
  case holdRec =>
    intro k
    rw [holdRec_freeHold, holdRec_freeHold, Part.holdRec_setRec]
    split <;> rfl
  all_goals intros; rfl

/-- A record given back leaves the bay's reserved count as it was before the record was reserved (R104). -/
theorem releaseReservation_reserved (b r : Nat) (p : Part) :
    ((p.modBuild b (fun y => { y with reserved := y.reserved + 1 })).releaseReservation b r).Same (p.freeHold r) := by
  constructor
  case build =>
    intro k
    simp only [Part.releaseReservation, Part.build_modBuild, build_freeHold]
    split
    · next h => simp [h]
    · rfl
  all_goals intros; rfl

theorem Part.Same.trans {p q t : Part} (h : p.Same q) (h' : q.Same t) : p.Same t where
  ring := h.ring.trans h'.ring
  counter i := (h.counter i).trans (h'.counter i)
  hall := h.hall.trans h'.hall
  mode := h.mode.trans h'.mode
  tables := h.tables.trans h'.tables
  useCount y := (h.useCount y).trans (h'.useCount y)
  book := h.book.trans h'.book
  build b := (h.build b).trans (h'.build b)
  free := h.free.trans h'.free
  armed := h.armed.trans h'.armed
  holdRec r := (h.holdRec r).trans (h'.holdRec r)
  call r := (h.call r).trans (h'.call r)
  lane l := (h.lane l).trans (h'.lane l)
  seq := h.seq.trans h'.seq
  cal := h.cal.trans h'.cal
  carrier c := (h.carrier c).trans (h'.carrier c)
  noticeQueue d := (h.noticeQueue d).trans (h'.noticeQueue d)

theorem Part.Same.count {p q : Part} (h : p.Same q) (c : Counter) : (p.count c).Same (q.count c) :=
  { h with
    counter := fun i => by
      simp only [Part.count, Part.counter, Map.get_set]
      have hc := h.counter c.index
      have hi := h.counter i
      simp only [Part.counter] at hc hi
      rw [hc, hi] }

/-- A granted reservation with room for the Steer: the carrier is STEERED (R170). -/
theorem steerGranted_room {b i r : Nat} (h : p.ring.urgent.length < 16) :
    p.steerGranted c b i r =
      (((p.setRec r { carrier := c }).modBuild b (fun y => { y with reserved := y.reserved + 1 })).urgentPosted
        ⟨.steer, (p.bayDir b).diverter, steerPayload c b⟩).setCarrier c
        { p.carrier c with state := .steered b i r (.running (p.const 4)) } := by
  unfold Part.steerGranted
  dsimp only
  rw [Part.post_steer_room rfl (by exact h)]
  rfl

/-- A granted reservation whose Steer is refused is given back and counted (R103, R170). -/
theorem steerGranted_full {b i r : Nat} (h : ¬ p.ring.urgent.length < 16) :
    (p.steerGranted c b i r).Same ((p.freeHold r).count .withheldQueue) := by
  unfold Part.steerGranted
  dsimp only
  rw [Part.post_steer_full rfl (by exact h)]
  exact ((releaseReservation_reserved b r _).trans (freeHold_setRec r _ p)).count _

/-- Settles O48: by the hold and block flags, the spur, the pool and the urgent queue. -/
theorem steeringAttempts : Obligations.SteeringAttempts := by
  intro p c b i hs x y t
  refine ⟨fun h => if_pos (by simpa using h), fun hh hb => ?_⟩
  have hopen : ¬ ((p.build b).holdFlag || (p.build b).blocked) = true := by
    rw [show (p.build b).holdFlag = _ from hh, show (p.build b).blocked = _ from hb]
    simp
  refine ⟨fun hf => ?spur, fun hf hd => ?dry, fun r rest hf hr => ?granted⟩
  case spur => simp only [t, Part.steerAttempt, if_neg hopen, takeRecord_full hf]
  case dry =>
    obtain ⟨hoff, hon⟩ := exhausted_runsDry b x.article p
    simp only [t, Part.steerAttempt, if_neg hopen, takeRecord_dry hf hd]
    exact ⟨fun ha => congrArg _ (hoff ha), fun ha => congrArg _ (hon ha)⟩
  case granted =>
    simp only [t, Part.steerAttempt, if_neg hopen, takeRecord_head hf hr]
    exact ⟨fun hu => .of_eq (steerGranted_room hu), fun hu => steerGranted_full (Nat.not_lt.mpr hu)⟩

end Sys2Proof.Machine

namespace Sys2Proof.Machine

variable {p : Part} {b c : Nat}

/-! ### ARRIVED (R172 to R174) -/

section Arrivals

variable {off : LaneAction} {i r : Nat} (hid : carrierId c = true)
include hid

theorem arrive_steered_here {x : Timer} (hs : (p.carrier c).state = .steered b i r x) :
    p.arrive off b c = (p.modBuild b (fun z => { z with reserved := z.reserved - 1 })).listLine off c b i r := by
  simp [Part.arrive, hid, hs]

theorem arrive_steered_elsewhere {a : Nat} {x : Timer} (hs : (p.carrier c).state = .steered a i r x) (ha : a ≠ b) :
    p.arrive off b c = (p.strayFrom off c a i r).foreignArrival off c b := by
  simp [Part.arrive, hid, hs, ha]

theorem arrive_enRoute_here (hs : (p.carrier c).state = .enRoute b i) :
    p.arrive off b c = p.lateArrival off c b i := by
  simp [Part.arrive, hid, hs]

theorem arrive_enRoute_elsewhere {a : Nat} (hs : (p.carrier c).state = .enRoute a i) (ha : a ≠ b) :
    p.arrive off b c = (p.withdraw off c a i (p.carrier c).toSurplus none).foreignArrival off c b := by
  simp [Part.arrive, hid, hs, ha]

theorem arrive_of_no_build (hs : (p.carrier c).state = .free ∨ (p.carrier c).state = .surplus ∨
    (p.carrier c).state = .reject) : p.arrive off b c = p.foreignArrival off c b := by
  rcases hs with hs | hs | hs <;> simp [Part.arrive, hid, hs]

theorem arrive_resting (hs : (∃ a r role, (p.carrier c).state = .held a r role) ∨
    ∃ a r role, (p.carrier c).state = .returning a r role) : p.arrive off b c = p.count .unmatched := by
  rcases hs with ⟨a, r, role, hs⟩ | ⟨a, r, role, hs⟩ <;> simp [Part.arrive, hid, hs]

end Arrivals

theorem arrive_nobody {off : LaneAction} (hid : carrierId c = false) : p.arrive off b c = p.count .unmatched := by
  simp [Part.arrive, hid]

/-- A carrier STEERED to another bay that gathers loses its reservation and strays (R174). -/
theorem strayFrom_gathering {off : LaneAction} {a i r : Nat} (h : (p.build a).state = .gathering) :
    p.strayFrom off c a i r = (p.releaseReservation a r).withdraw off c a i (p.carrier c).toSurplus none := by
  unfold Part.strayFrom
  dsimp only
  rw [if_pos]
  simpa [Part.releaseReservation] using h

/-- A carrier STEERED to another bay that drains loses its reservation and becomes SURPLUS (R174). -/
theorem strayFrom_draining {off : LaneAction} {a i r : Nat} (h : (p.build a).state = .draining) :
    p.strayFrom off c a i r =
      ((p.releaseReservation a r).setCarrier c { p.carrier c with state := .surplus }).drainTest off a := by
  unfold Part.strayFrom
  dsimp only
  rw [if_neg]
  simp [Part.releaseReservation, h]

/-- Settles O49: by where the carrier belongs, and by what the Hold Pool answers. -/
theorem arrivalsFillAHoldRecord : Obligations.ArrivalsFillAHoldRecord := by
  intro s pkt b h c x y spur base arrives h₁ h₂
  have hid : carrierId c = true := carrierId_iff.mpr ⟨h₁, h₂⟩
  have arrives_of : ∀ {q : Part} {ends : Part → Prop}, base.arrive takeLaneOut b c = q → ends q → arrives ends :=
    fun hq hends =>
      ⟨_, exec_report (exec_arrived pkt) h hq, hends⟩
  refine ⟨fun i r timer hs => ?here, fun i hs => ⟨fun r rest hf hr => ?listed, fun hf => ?spur, fun hf hd => ?dry⟩,
    fun a i hs ha => ?enRoute, fun a i r timer hs ha => ⟨fun hg => ?gathering, fun hd => ?draining⟩, fun hs => ?foreign⟩
  case here => exact arrives_of (arrive_steered_here hid hs) (listLine_listsLine _ _ _ _ _)
  case listed =>
    refine arrives_of (arrive_enRoute_here hid hs) ?_
    rw [Part.lateArrival, takeRecord_head (p := base) hf hr]
    exact listLine_listsLine _ _ _ _ _
  case spur =>
    refine arrives_of (arrive_enRoute_here hid hs) ?_
    rw [Part.lateArrival, takeRecord_full (p := base) hf]
    exact ⟨_, withdraw_strays _ _ _ _, foreignArrival_meetsForeign _ _ _⟩
  case dry =>
    refine arrives_of (arrive_enRoute_here hid hs) ?_
    rw [Part.lateArrival, takeRecord_dry (p := base) hf hd]
    exact ⟨_, _, exhausted_runsDry _ _ _, withdraw_strays _ _ _ _, foreignArrival_meetsForeign _ _ _⟩
  case enRoute =>
    exact arrives_of (arrive_enRoute_elsewhere hid hs ha)
      ⟨_, withdraw_strays _ _ _ _, foreignArrival_meetsForeign _ _ _⟩
  case gathering =>
    refine arrives_of (arrive_steered_elsewhere hid hs ha) ?_
    rw [strayFrom_gathering (p := base) hg]
    exact ⟨_, withdraw_strays _ _ _ _, foreignArrival_meetsForeign _ _ _⟩
  case draining =>
    refine arrives_of (arrive_steered_elsewhere hid hs ha) ?_
    rw [strayFrom_draining (p := base) hd]
    exact ⟨_, Part.Same.refl _, foreignArrival_meetsForeign _ _ _⟩
  case foreign => exact arrives_of (arrive_of_no_build hid hs) (foreignArrival_meetsForeign _ _ _)

/-! ### DEPARTED (R175, R109, R86) -/

/-- The foreign count after a departure: one fewer for a FOREIGN carrier. -/
def CarrierRole.foreignsLeft (role : CarrierRole) (n : Nat) : Nat :=
  match role with
  | .line _ => n
  | .foreign _ => n - 1

/-- What a departure leaves before the two tests: the carrier's next entry, and its record unlinked and freed. -/
def Part.departed (b r : Nat) (role : CarrierRole) (c : Nat) (p : Part) : Part :=
  ((p.modBuild b (fun y =>
    { y with hold := y.hold.filter (· ≠ r), foreigns := role.foreignsLeft y.foreigns })).freeHold r).setCarrier c
      ((p.carrier c).departed role (p.holdRec r))

theorem depart_returning {off : LaneAction} {r : Nat} {role : CarrierRole} (hid : carrierId c = true)
    (hs : (p.carrier c).state = .returning b r role) :
    ∃ u : Part, u.Same (p.departed b r role c) ∧
      p.depart off b c = (u.completionTest off b).drainTest off b := by
  cases role with
  | line i =>
    exact ⟨_, Part.Same.refl _, by simp [Part.depart, hid, hs]; rfl⟩
  | foreign prior =>
    refine ⟨((p.setCarrier c ((p.carrier c).departed (.foreign prior) (p.holdRec r))).unlink b r).modBuild b
      (fun x => { x with foreigns := x.foreigns - 1 }), ?_, by simp [Part.depart, hid, hs]⟩
    constructor
    case build =>
      intro k
      simp only [Part.departed, Part.unlink, Part.build_modBuild, build_freeHold, Part.build_setCarrier]
      split
      · next h => subst h; simp [CarrierRole.foreignsLeft]
      · rfl
    all_goals intros; rfl

theorem depart_nobody {off : LaneAction} (hid : carrierId c = false) : p.depart off b c = p.count .unmatched := by
  simp [Part.depart, hid]

theorem depart_unmatched {off : LaneAction} (hs : ∀ r role, (p.carrier c).state ≠ .returning b r role) :
    p.depart off b c = p.count .unmatched := by
  unfold Part.depart
  split
  · next a r role hid hst =>
    refine if_neg fun ha => ?_
    subst ha
    exact hs r role hst
  · rfl

/-- Settles O50: the record goes back to the pool, and the two tests follow. -/
theorem departuresFreeTheRecord : Obligations.DeparturesFreeTheRecord := by
  intro s pkt b r role h c x h₁ h₂ hs entry
  obtain ⟨u, hu, ht⟩ := depart_returning (off := takeLaneOut) (p := s.part.takeOn .bayReport pkt)
    (carrierId_iff.mpr ⟨h₁, h₂⟩) hs
  refine ⟨_, u, exec_report (exec_departed pkt) h ht, hu.trans (.of_eq ?_), rfl⟩
  have he : (s.part.carrier c).departed role (s.part.holdRec r) = entry := by
    cases role with
    | line i => rfl
    | foreign prior => cases prior <;> rfl
  rw [← he]
  cases role <;> rfl

/-! ### Reports that match no state (R99, R172, R175, R183) -/

theorem clearedAt_unmatched {off : LaneAction} {packed : Nat} (h : (p.build b).state ≠ .clearing) :
    p.clearedAt off b packed = p.count .unmatched := if_neg h

theorem Packet.u8_lt (pkt : Packet) (i : Nat) : pkt.u8 i < 256 := (pkt.byte i).isLt

theorem Packet.u16_lt (pkt : Packet) (i : Nat) : pkt.u16 i < 65536 := by
  have h₁ := Packet.u8_lt pkt i
  have h₂ := Packet.u8_lt pkt (i + 1)
  rw [Packet.u16]
  omega

theorem Timer.live_iff {x : Timer} : x.live = true ↔ x ≠ .stopped := by cases x <;> simp [Timer.live]

/-- A report of a step that is not the one awaited, or whose bit 11 is set, is stale (R183). -/
theorem stepReport_stale {pkt : Packet} {act : Part → Part}
    (h : (p.build b).state ≠ .finishing ∨ (p.build b).stepTimer = .stopped ∨ pkt.u16 7 / 4096 ≠ (p.build b).epoch ∨
      pkt.u16 7 % 2048 ≠ (p.build b).pointer ∨ pkt.u16 7 / 2048 % 2 = 1) :
    p.stepReport b pkt act = p.count .unmatched := by
  refine if_neg fun hm => ?_
  simp only [Part.stepMatches, Part.stepAwaited, stepTagClear, Bool.and_eq_true, decide_eq_true_eq] at hm
  simp only [tagHigh, tagPointer] at hm
  obtain ⟨⟨⟨⟨hf, hl⟩, he⟩, hp⟩, hc⟩ := hm
  have hlt := Packet.u16_lt pkt 7
  rcases h with h | h | h | h | h
  · exact h hf
  · rw [h] at hl
    cases hl
  · omega
  · exact h hp
  · omega

/-- The report of the step that is awaited, bit 11 clear, stops the step timer and is acted on (R183). -/
theorem stepReport_matching {pkt : Packet} {act : Part → Part} (hf : (p.build b).state = .finishing)
    (ht : (p.build b).stepTimer ≠ .stopped) (he : pkt.u16 7 / 4096 = (p.build b).epoch)
    (hp : pkt.u16 7 % 2048 = (p.build b).pointer) (hc : pkt.u16 7 / 2048 % 2 = 0) :
    p.stepReport b pkt act = act (p.stopStepTimer b) := by
  refine if_pos ?_
  have hlt := Packet.u16_lt pkt 7
  have hlive : (p.build b).stepTimer.live = true := Timer.live_iff.mpr ht
  have hhigh : pkt.u16 7 / 4096 % 16 = (p.build b).epoch := by omega
  simp [Part.stepMatches, Part.stepAwaited, stepTagClear, tagHigh, tagPointer, hf, hlive, hhigh, hp, hc]

/-- A Bay Report from a node that is no in-service bay's is counted (R40). -/
theorem exec_report_unattributed {i : Instr} {pkt : Packet} {s : State} (hw : i.wf = true)
    (hr : received i = some (.bayReport, pkt)) (hm : s.part.mode ≠ .config) (h : s.part.receives pkt)
    (hb : s.part.reportBay pkt.src.toNat = none) :
    exec i s = .next { s with part := (s.part.takeOn .bayReport pkt).count .unmatched } := by
  obtain ⟨hc, act, he⟩ := exec_of_received_report hw hr
  have hbay : (s.part.takeOn .bayReport pkt).reportBay pkt.src.toNat = none := hb
  refine (he s).trans (State.onPart_eq ?_)
  rw [Part.deliver_report h hm hc, Part.onBay, hbay]

/-- Settles O51: each report's own check counts it and changes nothing. -/
theorem unmatchedReportsAreCounted : Obligations.UnmatchedReportsAreCounted := by
  refine ⟨fun s pkt b h hs => ?cleared, fun s i pkt hw hr hm h hb => exec_report_unattributed hw hr hm h hb,
    fun s pkt b => ?atBay⟩
  case cleared => exact exec_report (exec_cleared pkt) h (clearedAt_unmatched hs)
  case atBay =>
    intro counted c x tag y stale
    have step : ∀ {act : Part → Part}, stale → (s.part.takeOn .bayReport pkt).stepReport b pkt act = counted :=
      fun hs => stepReport_stale hs
    refine ⟨fun h hc => exec_report (exec_arrived pkt) h ?_, fun h hc => exec_report (exec_departed pkt) h ?_,
      fun h hs => exec_report (exec_stepDone pkt) h (step hs),
      fun h hs => exec_report (exec_stepRefused pkt) h (step hs),
      fun h hs => exec_report (exec_stepFault pkt) h (step hs)⟩
    · by_cases hid : carrierId c = true
      · have hc' := carrierId_iff.mp hid
        exact arrive_resting hid ((hc.resolve_left (by omega)).resolve_left (by omega))
      · exact arrive_nobody ((Bool.not_eq_true _).mp hid)
    · by_cases hid : carrierId c = true
      · have hc' := carrierId_iff.mp hid
        exact depart_unmatched ((hc.resolve_left (by omega)).resolve_left (by omega))
      · exact depart_nobody ((Bool.not_eq_true _).mp hid)

end Sys2Proof.Machine

namespace Sys2Proof.Machine

variable {p : Part} {b : Nat}

/-! ### Two changes of one build -/

theorem Part.Same.symm {p q : Part} (h : p.Same q) : q.Same p where
  ring := h.ring.symm
  counter i := (h.counter i).symm
  hall := h.hall.symm
  mode := h.mode.symm
  tables := h.tables.symm
  useCount y := (h.useCount y).symm
  book := h.book.symm
  build b := (h.build b).symm
  free := h.free.symm
  armed := h.armed.symm
  holdRec r := (h.holdRec r).symm
  call r := (h.call r).symm
  lane l := (h.lane l).symm
  seq := h.seq.symm
  cal := h.cal.symm
  carrier c := (h.carrier c).symm
  noticeQueue d := (h.noticeQueue d).symm

theorem Part.Same.modUseCount {p q : Part} (h : p.Same q) (y : Nat) (f : Nat → Nat) :
    (p.modUseCount y f).Same (q.modUseCount y f) :=
  { h with useCount := fun k => by simp only [Part.useCount_modUseCount, h.useCount] }

/-- Two changes of one build are one. -/
theorem modBuild_modBuild (b : Nat) (f g : Build → Build) (p : Part) :
    ((p.modBuild b g).modBuild b f).Same (p.modBuild b (fun y => f (g y))) := by
  constructor
  case build =>
    intro k
    simp only [Part.build_modBuild]
    split <;> simp
  all_goals intros; rfl

theorem modBuild_modUseCount (b y : Nat) (f : Build → Build) (g : Nat → Nat) (p : Part) :
    (p.modUseCount y g).modBuild b f = (p.modBuild b f).modUseCount y g := rfl

/-! ### What walks a finish list on (R183, R185, R187) -/

/-- The pointer advances and the step there is executed. -/
theorem nextStep_walks (b : Nat) (p : Part) : (p.advancePointer b).walks b (p.nextStep takeLaneOut b) :=
  executeStep_walks b _

theorem pointer_stopStepTimer (b : Nat) (p : Part) : ((p.stopStepTimer b).build b).pointer = (p.build b).pointer := by
  rw [Part.stopStepTimer, Part.build_modBuild_self]

/-- A refused step whose on-refuse setting is CONTINUE walks on (R183). -/
theorem stepRefusedAt_continue {off : LaneAction} {code parameter : Nat}
    (h : p.step (p.build b).pointer = .action true code parameter) :
    p.stepRefusedAt off b = p.nextStep off b := by
  simp [Part.stepRefusedAt, Part.onRefuseContinue, h]

/-- Any other refused step stops the walk (R183). -/
theorem stepRefusedAt_stop {off : LaneAction}
    (h : ∀ code parameter, p.step (p.build b).pointer ≠ .action true code parameter) :
    p.stepRefusedAt off b = p.stopBuild off b .refused := by
  have hc : p.onRefuseContinue b = false := by
    unfold Part.onRefuseContinue
    split
    · next c code parameter hs => cases c <;> first | rfl | exact absurd hs (h code parameter)
    · rfl
  rw [Part.stepRefusedAt, hc]
  rfl

/-- A pointer lies in a style's finish list (R48). -/
theorem inFinishList_iff {style index : Nat} : p.inFinishList style index = true ↔
    p.styleStart style ≤ index ∧ index < 2048 ∧
      ∀ j, p.styleStart style ≤ j → j < index → p.step j ≠ .finish := by
  simp only [Part.inFinishList, Bool.and_eq_true, decide_eq_true_eq, List.all_eq_true, List.mem_range'_1, and_assoc]
  refine and_congr_right fun hs => and_congr_right fun _ => forall_congr' fun j => ?_
  rw [Nat.add_sub_cancel' hs, and_imp]

/-- A use count that rises for every style but 0 (R179). -/
theorem useStyle_same (y : Nat) (p : Part) :
    (p.useStyle y).Same (p.modUseCount y (fun n => if y = 0 then n else n + 1)) := by
  unfold Part.useStyle
  split
  · subst y
    exact (modUseCount_same 0 (fun n => n) rfl).symm
  · exact Part.Same.refl _

theorem bayKnown_iff : bayKnown b = true ↔ 1 ≤ b ∧ b ≤ 64 := by simp [bayKnown]

theorem not_bayKnown_iff : bayKnown b = false ↔ b = 0 ∨ 64 < b := by
  rw [← Bool.not_eq_true, bayKnown_iff]
  omega

section FinishRequests

variable {go : Nat → Part → Part} {pkt : Packet}

theorem finishRequest_badIndex (h : bayKnown (pkt.u8 8) = false) : finishRequest go pkt p = refuse .badIndex p := by
  simp [finishRequest, bayNumber, h]

theorem finishRequest_badState (hb : bayKnown (pkt.u8 8) = true)
    (h : (p.build (pkt.u8 8)).state ≠ .finishStopped ∨
      p.inFinishList (p.styleAt (pkt.u8 8)) (p.build (pkt.u8 8)).pointer = false) :
    finishRequest go pkt p = refuse .badState p := by
  rcases h with h | h <;> simp [finishRequest, bayNumber, hb, h]

theorem finishRequest_ok (hb : bayKnown (pkt.u8 8) = true) (hs : (p.build (pkt.u8 8)).state = .finishStopped)
    (hl : p.inFinishList (p.styleAt (pkt.u8 8)) (p.build (pkt.u8 8)).pointer = true) :
    finishRequest go pkt p =
      accept ((go (pkt.u8 8) (p.backToFinishing (pkt.u8 8))).finishReply (pkt.u8 8))
        (go (pkt.u8 8) (p.backToFinishing (pkt.u8 8))) := by
  simp [finishRequest, bayNumber, hb, hs, hl]

end FinishRequests

/-- The build that a FINISH_SKIP (`skip`) or a FINISH_RESUME takes back to FINISHING (R187). -/
def Part.backTo (skip : Bool) (b : Nat) (p : Part) : Part :=
  if skip then (p.backToFinishing b).advancePointer b else p.backToFinishing b

theorem backTo_same (skip : Bool) (b : Nat) (p : Part) :
    (p.backTo skip b).Same ((p.modBuild b (fun z =>
      { z with state := .finishing, stopCause := .none,
               pointer := if skip then min 2048 (z.pointer + 1) else z.pointer })).modUseCount (p.styleAt b)
        (fun n => if p.styleAt b = 0 then n else n + 1)) := by
  cases skip
  · exact useStyle_same _ _
  · rw [show p.backTo true b = (p.backToFinishing b).advancePointer b from rfl, Part.advancePointer,
      Part.backToFinishing]
    refine ((useStyle_same (p.styleAt b) _).modBuild b _).trans ?_
    rw [modBuild_modUseCount]
    exact (modBuild_modBuild b _ _ p).modUseCount _ _

/-- Settles O52: each event leads to a step at the pointer, and its execution is a walk. -/
theorem walksGoOnFromTheirPointer : Obligations.WalksGoOnFromTheirPointer := by
  refine ⟨fun s pkt b => ?report, fun s b h hf => ⟨fun hw => ?expired, fun hw => ?idle⟩, fun s pkt skip => ?request⟩
  case report =>
    intro y tag advanced hf ht he hp hc
    have matched : ∀ act : Part → Part, (s.part.takeOn .bayReport pkt).stepReport b pkt act =
        act ((s.part.takeOn .bayReport pkt).stopStepTimer b) := fun act => stepReport_matching hf ht he hp hc
    have same : (((s.part.takeOn .bayReport pkt).stopStepTimer b).advancePointer b).Same advanced :=
      modBuild_modBuild b _ _ _
    refine ⟨fun h => ?_, fun code parameter h hs => ?_⟩
    · exact ⟨_, _, exec_report (exec_stepDone pkt) h (matched _), same, nextStep_walks _ _⟩
    · refine ⟨_, _, exec_report (exec_stepRefused pkt) h ((matched _).trans ?_), same, nextStep_walks _ _⟩
      exact stepRefusedAt_continue (code := code) (parameter := parameter) (by
        rw [pointer_stopStepTimer]; exact hs)
  case expired =>
    refine ⟨_, _, exec_expiry (exec_waitTimeout b) h (if_pos ⟨hw, hf⟩), ?_, nextStep_walks _ _⟩
    exact modBuild_modBuild b _ _ _
  case idle => exact exec_expiry (exec_waitTimeout b) h (if_neg fun hn => hw hn.1)
  case request =>
    intro b y style start listed i h
    have hlisted : listed ↔ s.part.inFinishList style y.pointer = true := inFinishList_iff.symm
    let go : Nat → Part → Part := fun b q => if skip then q.nextStep takeLaneOut b else q.executeStep takeLaneOut b
    have he : ∀ s, exec i s = s.onRequest (if skip then .finishSkip else .finishResume) pkt (finishRequest go) := by
      cases skip <;> exact fun _ => rfl
    refine ⟨fun hb => ?_, fun h₁ h₂ hs => ?_, fun h₁ h₂ hs hl => ?_⟩
    · exact exec_request_unchanged he h (finishRequest_badIndex (not_bayKnown_iff.mpr hb))
    · refine exec_request_unchanged he h (finishRequest_badState (bayKnown_iff.mpr ⟨h₁, h₂⟩) ?_)
      rw [hlisted, Bool.not_eq_true] at hs
      exact hs
    · refine ⟨_, (s.part.replied pkt .ok []).backTo skip b, exec_request_answered he h
        (finishRequest_ok (bayKnown_iff.mpr ⟨h₁, h₂⟩) hs (hlisted.mp hl)), backTo_same _ _ _, ?_⟩
      cases skip
      · exact executeStep_walks b _
      · exact nextStep_walks b _

/-! ### What stops a walk (R183, R184, R186) -/

/-- Stopping the step timer first leaves the same stopped build. -/
theorem stops_of_stopStepTimer {cause : StopCause} {t : Part} (h : (p.stopStepTimer b).stops b cause t) :
    p.stops b cause t := by
  obtain ⟨u, hu, ht⟩ := h
  have hstyle : (p.stopStepTimer b).styleAt b = p.styleAt b := by
    simp [Part.stopStepTimer, Part.styleAt, Part.orderAt]
  refine ⟨u, hu.trans ?_, ht.trans ?_⟩
  · rw [hstyle]
    exact (modBuild_modBuild b _ _ p).modUseCount _ _
  · simp [Part.stopStepTimer]

/-- The undelivered STEP that is awaited stops the walk (R10). -/
theorem bayCommandReturned_step {off : LaneAction} {pkt : Packet} (hb : p.bayOfNode pkt.dst.toNat = some b)
    (hc : pkt.u8 6 = 1) (ha : p.stepAwaited b (pkt.u16 7) = true) :
    p.bayCommandReturned off pkt = (p.stopStepTimer b).stopBuild off b .fault := by
  simp [Part.bayCommandReturned, hb, hc, ha]

/-- The step a tag names is awaited (R10, R183). -/
theorem stepAwaited_of {tag : Nat} (hf : (p.build b).state = .finishing) (ht : (p.build b).stepTimer ≠ .stopped)
    (he : tag / 4096 = (p.build b).epoch) (hp : tag % 2048 = (p.build b).pointer) (hlt : tag < 65536) :
    p.stepAwaited b tag = true := by
  have hhigh : tag / 4096 % 16 = (p.build b).epoch := by omega
  simp [Part.stepAwaited, tagHigh, tagPointer, hf, Timer.live_iff.mpr ht, hhigh, hp]

/-- Settles O53: each event stops the build with its cause. -/
theorem walksStopWithTheirCause : Obligations.WalksStopWithTheirCause := by
  refine ⟨fun s pkt b => ?report, fun s b h hf => ⟨fun hw => ?expired, fun hw => ?idle⟩⟩
  case report =>
    intro y tag hf ht he hp
    have matched : tag / 2048 % 2 = 0 → ∀ act : Part → Part, (s.part.takeOn .bayReport pkt).stepReport b pkt act =
        act ((s.part.takeOn .bayReport pkt).stopStepTimer b) := fun hc act => stepReport_matching hf ht he hp hc
    refine ⟨fun hc h => ?_, fun hc h hs => ?_, fun h hb hc => ?_⟩
    · exact ⟨_, exec_report (exec_stepFault pkt) h (matched hc _), stops_of_stopStepTimer (stopBuild_stops _ _ _)⟩
    · refine ⟨_, exec_report (exec_stepRefused pkt) h ((matched hc _).trans (stepRefusedAt_stop ?_)),
        stops_of_stopStepTimer (stopBuild_stops _ _ _)⟩
      rw [pointer_stopStepTimer]
      exact hs
    · have ha : (s.part.stripCounted .bayCommand).stepAwaited b (pkt.u16 7) = true :=
        stepAwaited_of hf ht he hp (Packet.u16_lt pkt 7)
      refine ⟨_, State.onPart_eq ((Part.ownKind_returned h).trans (bayCommandReturned_step hb hc ha)), ?_⟩
      exact stops_of_stopStepTimer (stopBuild_stops _ _ _)
  case expired => exact ⟨_, exec_expiry (exec_stepTimeout b) h (if_pos ⟨hw, hf⟩), stopBuild_stops _ _ _⟩
  case idle => exact exec_expiry (exec_stepTimeout b) h (if_neg fun hn => hw hn.1)

/-! ### The two tests that end a build (R80 to R83, R96) -/

/-- What the completion test asks of a bay's order (R80). -/
theorem complete_iff {o : Order} (ho : p.orderAt b = some o) : p.complete b = true ↔
    (p.build b).state = .gathering ∧
      (∀ i l, (i, l) ∈ o.lines → l.enRoute = 0 ∧ l.outstanding = 0 ∧ l.uncalled = 0) ∧ (p.build b).foreigns = 0 ∧
      ∀ r ∈ (p.build b).hold, (p.holdRec r).isLine = true → (p.holdRec r).mark = .none := by
  simp [Part.complete, ho, Order.settled, Line.settled, Part.noReturningLine, and_assoc, imp_iff_not_or]

theorem anyShort_iff {o : Order} : o.anyShort = true ↔ ∃ i l, (i, l) ∈ o.lines ∧ 0 < l.short := by
  simp [Order.anyShort]

theorem completionTest_fails {off : LaneAction} (h : ∀ o, p.orderAt b = some o → p.complete b = false) :
    p.completionTest off b = p := by
  unfold Part.completionTest
  split
  · rfl
  · next o ho => simp [h o ho]

/-- A passed test with a short line that the order does not tolerate leads to SHORT_HOLD (R81). -/
theorem completionTest_short {off : LaneAction} {o : Order} (ho : p.orderAt b = some o) (hc : p.complete b = true)
    (hs : o.anyShort = true) (ht : o.tolerant = false) :
    p.completionTest off b = (p.modBuild b (fun y => { y with dwell := .stopped })).enterShortHold off b := by
  simp [Part.completionTest, ho, hc, hs, ht]

theorem completionTest_gathered {off : LaneAction} {o : Order} (ho : p.orderAt b = some o) (hc : p.complete b = true)
    (hs : o.anyShort = false ∨ o.tolerant = true) :
    p.completionTest off b = (p.modBuild b (fun y => { y with dwell := .stopped })).gathered off b := by
  rcases hs with hs | hs <;> simp [Part.completionTest, ho, hc, hs]

theorem gathered_releases (h : p.styleAt b = 0) : p.releases b (p.gathered takeLaneOut b) := by
  rw [Part.gathered, if_pos h]
  exact release_releases b p

/-- A gathered build with a style walks its finish list from the start index (R83, R180). -/
theorem gathered_walks (h : p.styleAt b ≠ 0) : ∃ u : Part,
    u.Same ((p.modBuild b (fun z =>
      { z with state := .finishing, pointer := p.styleStart (p.styleAt b), stopCause := .none })).modUseCount
        (p.styleAt b) (fun n => n + 1)) ∧ u.walks b (p.gathered takeLaneOut b) := by
  rw [Part.gathered, if_neg h]
  refine ⟨_, Part.Same.of_eq ?_, executeStep_walks b _⟩
  rw [Part.useStyle, if_neg h]

theorem styleAt_eq {o : Order} (ho : p.orderAt b = some o) : p.styleAt b = o.style := by
  simp [Part.styleAt, ho]

/-- A bay's build refers to the same order after a change of its build that keeps the number. -/
theorem orderAt_modBuild_same {f : Build → Build} (h : (f (p.build b)).order = (p.build b).order) :
    (p.modBuild b f).orderAt b = p.orderAt b := by
  rw [Part.orderAt, Part.build_modBuild_self, h]
  rfl

/-- What the end-of-drain test asks (R96). -/
theorem drained_iff : p.drained b = true ↔ (p.build b).state = .draining ∧ (p.build b).hold = [] ∧
    (p.build b).reserved = 0 ∧ (p.build b).orphans = 0 := by
  simp [Part.drained, and_assoc]

/-- Settles O54: by the order that the build refers to, and by the pending-out mark. -/
theorem completionAndDrainTestsEndABuild : Obligations.CompletionAndDrainTestsEndABuild := by
  refine ⟨fun p b => ?completion, fun p b => ?drain⟩
  case completion =>
    intro passes t
    refine ⟨fun hn => ?fails, fun o hp => ?passes⟩
    case fails =>
      refine completionTest_fails fun o ho => ?_
      rw [← Bool.not_eq_true, complete_iff ho]
      exact fun hc => hn o ⟨ho, hc⟩
    case passes =>
      intro short rested
      obtain ⟨ho, hc⟩ := hp
      rw [← complete_iff ho] at hc
      have hshort : short ↔ o.anyShort = true := anyShort_iff.symm
      have hstyle : rested.styleAt b = o.style := styleAt_eq ((orderAt_modBuild_same rfl).trans ho)
      rw [hshort, Bool.not_eq_true]
      refine ⟨fun hs ht => ?_, fun hs hz => ?_, fun hs hz => ?_⟩
      · refine ⟨(rested.modBuild b (fun y => { y with state := .shortHold })), modBuild_modBuild b _ _ p,
          (completionTest_short ho hc hs ht).trans ?_⟩
        simp [Part.enterShortHold, rested]
      · rw [show t = _ from completionTest_gathered ho hc hs]
        exact gathered_releases (hstyle.trans hz)
      · rw [show t = _ from completionTest_gathered ho hc hs, ← hstyle]
        exact gathered_walks (by rwa [hstyle])
  case drain =>
    intro y ended
    have hended : ended ↔ p.drained b = true := drained_iff.symm
    rw [hended]
    refine ⟨fun h => if_neg h, fun h hp => ?_, fun h hp => ?_⟩
    · rw [Part.drainTest, if_pos h, if_pos hp]
      exact Part.Same.refl _
    · rw [Part.drainTest, if_pos h, if_neg (by simpa using hp)]
      exact ⟨_, Part.Same.refl _, rfl⟩

/-! ### SHORT_ACCEPT (R82) -/

section ShortAccept

variable {off : LaneAction} {pkt : Packet}

theorem shortAccept_badIndex (h : bayKnown (pkt.u8 8) = false) : shortAccept off pkt p = refuse .badIndex p := by
  simp [shortAccept, bayNumber, h]

theorem shortAccept_badState (hb : bayKnown (pkt.u8 8) = true) (h : (p.build (pkt.u8 8)).state ≠ .shortHold) :
    shortAccept off pkt p = refuse .badState p := by
  simp [shortAccept, bayNumber, hb, h]

theorem shortAccept_ok (hb : bayKnown (pkt.u8 8) = true) (h : (p.build (pkt.u8 8)).state = .shortHold) :
    shortAccept off pkt p =
      accept (b8 ((p.gathered off (pkt.u8 8)).build (pkt.u8 8)).state.code) (p.gathered off (pkt.u8 8)) := by
  simp [shortAccept, bayNumber, hb, h]

end ShortAccept

/-- Settles O59: by the bay number, the build's state and the order's style. -/
theorem shortAcceptEndsAShortHold : Obligations.ShortAcceptEndsAShortHold := by
  intro s pkt h b style
  refine ⟨fun hb => ?_, fun h₁ h₂ hs => ?_, fun h₁ h₂ hs => ?_⟩
  · exact exec_request_unchanged (exec_shortAccept pkt) h (shortAccept_badIndex (not_bayKnown_iff.mpr hb))
  · exact exec_request_unchanged (exec_shortAccept pkt) h (shortAccept_badState (bayKnown_iff.mpr ⟨h₁, h₂⟩) hs)
  · exact ⟨(s.part.replied pkt .ok []).gathered takeLaneOut b,
      exec_request_answered (exec_shortAccept pkt) h (shortAccept_ok (bayKnown_iff.mpr ⟨h₁, h₂⟩) hs),
      fun hz => gathered_releases hz, fun hz => gathered_walks (p := s.part.replied pkt .ok []) hz⟩

end Sys2Proof.Machine

namespace Sys2Proof.Machine

variable {p : Part} {b : Nat}

/-! ### What a fold of writes changes -/

/-- A fold of changes, each of which is related to what it changes, is so related itself. -/
theorem foldl_rel {α : Type} {R : Part → Part → Prop} {f : Part → α → Part} (hr : ∀ q, R q q)
    (ht : ∀ {q q' q''}, R q q' → R q' q'' → R q q'') (hf : ∀ q a, R q (f q a)) (l : List α) (p : Part) :
    R p (l.foldl f p) := by
  induction l generalizing p with
  | nil => exact hr p
  | cons a l ih => exact ht (hf p a) (ih (f p a))

/-- The second part is the first but for its carriers. -/
def OnlyCarriers (p q : Part) : Prop := q = { p with carriers := q.carriers }

/-- The second part is the first but for its hold records. -/
def OnlyRecs (p q : Part) : Prop := q = { p with pool := { p.pool with recs := q.pool.recs } }

/-- The second part is the first but for its order records. -/
def OnlyOrders (p q : Part) : Prop := q = { p with book := { p.book with orders := q.book.orders } }

theorem OnlyCarriers.trans {p q t : Part} (h : OnlyCarriers p q) (h' : OnlyCarriers q t) : OnlyCarriers p t := by
  unfold OnlyCarriers at *
  rw [h', h]

theorem OnlyRecs.trans {p q t : Part} (h : OnlyRecs p q) (h' : OnlyRecs q t) : OnlyRecs p t := by
  unfold OnlyRecs at *
  rw [h', h]

theorem onlyOrders_modOrder (n : Nat) (f : Order → Order) (p : Part) : OnlyOrders p (p.modOrder n f) := by
  unfold OnlyOrders Part.modOrder
  split <;> rfl

/-! ### CLEARED (R97, R110) -/

/-- The carriers of a list of records made FREE. -/
def Part.freeCarriers (l : List Nat) (p : Part) : Part := l.foldl (fun q r => q.setCarrier (q.holdRec r).carrier {}) p

theorem onlyCarriers_freeCarriers (l : List Nat) (p : Part) : OnlyCarriers p (p.freeCarriers l) :=
  foldl_rel (R := OnlyCarriers) (fun _ => rfl) OnlyCarriers.trans (fun _ _ => by rfl) l p

theorem carrier_freeCarriers (l : List Nat) (p : Part) (c : Nat) :
    (p.freeCarriers l).carrier c = if c ∈ l.map (fun r => (p.holdRec r).carrier) then {} else p.carrier c := by
  induction l generalizing p with
  | nil => rfl
  | cons r l ih =>
    rw [Part.freeCarriers, List.foldl_cons, ← Part.freeCarriers, ih]
    simp only [Part.carrier_setCarrier, Part.holdRec_setCarrier, List.map_cons, List.mem_cons]
    by_cases hc : c = (p.holdRec r).carrier <;> simp [hc]

/-- A list of records given their FREE values. -/
def Part.freeRecs (l : List Nat) (p : Part) : Part := l.foldl (fun q r => q.setRec r {}) p

theorem onlyRecs_freeRecs (l : List Nat) (p : Part) : OnlyRecs p (p.freeRecs l) :=
  foldl_rel (R := OnlyRecs) (fun _ => rfl) OnlyRecs.trans (fun _ _ => by rfl) l p

theorem holdRec_freeRecs (l : List Nat) (p : Part) (k : Nat) :
    (p.freeRecs l).holdRec k = if k ∈ l then {} else p.holdRec k := by
  induction l generalizing p with
  | nil => rfl
  | cons r l ih =>
    rw [Part.freeRecs, List.foldl_cons, ← Part.freeRecs, ih, Part.holdRec_setRec]
    by_cases hk : k = r <;> simp [hk]

/-- A bay's records, carriers and counts when its build has been cleared (R97, R110). -/
def Part.emptied (b : Nat) (p : Part) : Part :=
  ((p.freeCarriers (p.build b).hold).splice b).modBuild b (fun y =>
    { y with foreigns := 0, chilledHeld := 0, pending := [] })

/-- The order's end when its build has been cleared (R56, R97). -/
def Order.finished (o : Order) : Order := { o with state := if o.anyShort then .doneShort else .done }

theorem not_isEmpty_eq {α : Type} [DecidableEq α] (l : List α) : (!l.isEmpty) = decide (l ≠ []) := by
  cases l <;> rfl

/-- A spliced hold list: its records FREE and at the head of the free list, and the bay's list empty (R110). -/
theorem splice_eq (b : Nat) (p : Part) :
    p.splice b = { p with pool :=
      { free := (p.build b).hold ++ p.pool.free, recs := (p.freeRecs (p.build b).hold).pool.recs,
        armed := p.pool.armed || decide ((p.build b).hold ≠ []) } }.modBuild b (fun x => { x with hold := [] }) := by
  have h := onlyRecs_freeRecs (p.build b).hold p
  have hs : p.splice b = (fun q : Part => Part.modBuild b (fun x => { x with hold := [] }) { q with pool :=
      { q.pool with free := (p.build b).hold ++ q.pool.free, armed := q.pool.armed || !(p.build b).hold.isEmpty } })
      (p.freeRecs (p.build b).hold) := rfl
  rw [hs, ← not_isEmpty_eq]
  generalize p.freeRecs (p.build b).hold = q at h ⊢
  rw [h]

/-- An emptied bay differs in its pool, the carriers and the builds. -/
theorem emptied_eq (b : Nat) (p : Part) :
    p.emptied b = { p with
      pool :=
        { free := (p.build b).hold ++ p.pool.free, recs := (p.emptied b).pool.recs,
          armed := p.pool.armed || decide ((p.build b).hold ≠ []) },
      carriers := (p.emptied b).carriers, builds := (p.emptied b).builds } := by
  have h := onlyCarriers_freeCarriers (p.build b).hold p
  unfold Part.emptied
  rw [splice_eq]
  generalize p.freeCarriers (p.build b).hold = q at h ⊢
  rw [h]
  rfl

theorem holdRec_emptied (b : Nat) (p : Part) (r : Nat) :
    (p.emptied b).holdRec r = if r ∈ (p.build b).hold then {} else p.holdRec r := by
  have h := onlyCarriers_freeCarriers (p.build b).hold p
  have he : (p.emptied b).holdRec r = ((p.freeCarriers (p.build b).hold).splice b).holdRec r := rfl
  rw [he, splice_eq]
  have hq : (p.freeCarriers (p.build b).hold).build b = p.build b := by rw [h]; rfl
  change ((p.freeCarriers (p.build b).hold).freeRecs ((p.freeCarriers (p.build b).hold).build b).hold).holdRec r = _
  rw [hq, holdRec_freeRecs, h]
  rfl

theorem carrier_emptied (b : Nat) (p : Part) (c : Nat) :
    (p.emptied b).carrier c =
      if c ∈ (p.build b).hold.map (fun r => (p.holdRec r).carrier) then {} else p.carrier c := by
  have he : (p.emptied b).carrier c = ((p.freeCarriers (p.build b).hold).splice b).carrier c := rfl
  rw [he, splice_eq, ← carrier_freeCarriers]
  rfl

theorem build_emptied (b : Nat) (p : Part) (a : Nat) :
    (p.emptied b).build a =
      if a = b then { p.build b with hold := [], foreigns := 0, chilledHeld := 0, pending := [] } else p.build a := by
  have h := onlyCarriers_freeCarriers (p.build b).hold p
  have hq : ∀ k, (p.freeCarriers (p.build b).hold).build k = p.build k := fun k => by rw [h]; rfl
  rw [Part.emptied, splice_eq]
  simp only [Part.build_modBuild]
  change (if a = b then ({ ({ (p.freeCarriers (p.build b).hold).build b with hold := [] } : Build) with
    foreigns := 0, chilledHeld := 0, pending := [] } : Build) else (if a = b then _ else
      (p.freeCarriers (p.build b).hold).build a)) = _
  rw [hq, hq]
  split <;> rfl

/-- The part when its bay's build has been cleared, before DONE is raised (R97). -/
def Part.clearedOut (b : Nat) (p : Part) : Part := (p.emptied b).modOrder (p.build b).order Order.finished

theorem clearedOut_eq (b : Nat) (p : Part) :
    p.clearedOut b = { p with
      pool := { (p.clearedOut b).pool with
        free := (p.build b).hold ++ p.pool.free, armed := p.pool.armed || decide ((p.build b).hold ≠ []) },
      carriers := (p.clearedOut b).carriers, builds := (p.clearedOut b).builds,
      book := { p.book with orders := (p.clearedOut b).book.orders } } := by
  have h : OnlyOrders (p.emptied b) (p.clearedOut b) := onlyOrders_modOrder _ _ _
  have he := emptied_eq b p
  generalize p.clearedOut b = u at h ⊢
  rw [h]
  generalize p.emptied b = q at he ⊢
  rw [he]

theorem order_clearedOut (b : Nat) (p : Part) (n : Nat) :
    (p.clearedOut b).order? n = (p.order? n).map (fun o => if n = (p.build b).order then o.finished else o) := by
  have he : ∀ k, (p.emptied b).order? k = p.order? k := fun k => by rw [emptied_eq]; rfl
  rw [Part.clearedOut, Part.order_q_modOrder, he, he]
  split
  · next h => rw [h]
  · simp

theorem holdRec_clearedOut (b : Nat) (p : Part) (r : Nat) :
    (p.clearedOut b).holdRec r = if r ∈ (p.build b).hold then {} else p.holdRec r := by
  rw [Part.clearedOut, Part.holdRec_modOrder, holdRec_emptied]

theorem carrier_clearedOut (b : Nat) (p : Part) (c : Nat) :
    (p.clearedOut b).carrier c =
      if c ∈ (p.build b).hold.map (fun r => (p.holdRec r).carrier) then {} else p.carrier c := by
  rw [Part.clearedOut, Part.carrier_modOrder, carrier_emptied]

theorem build_clearedOut (b : Nat) (p : Part) (a : Nat) :
    (p.clearedOut b).build a =
      if a = b then { p.build b with hold := [], foreigns := 0, chilledHeld := 0, pending := [] } else p.build a := by
  rw [Part.clearedOut, Part.build_modOrder, build_emptied]

theorem Order.finished_eq (o : Order) :
    o.finished = { o with state := if ∃ kv ∈ o.lines, 0 < (Prod.snd kv).short then .doneShort else .done } := by
  simp only [Order.finished, Order.anyShort, List.any_eq_true, decide_eq_true_eq]

/-- A build that is cleared: counted if the packed count differs, cleared out, DONE raised, and IDLE (R97). -/
theorem clearBay_eq (off : LaneAction) (b packed : Nat) (p : Part) :
    p.clearBay off b packed =
      ((((if p.packCount b = packed then p else p.count .packedDifferences).clearedOut b).raise off
        { kind := .done, bay := b, order := (p.build b).order }).modBuild b (fun y =>
          { y.finishIdle with state := .idle, order := 0, committed := 0 })).bindingEvent off [b] := by
  unfold Part.clearBay
  split <;> rfl

/-- Settles O55: what the bay, its records and carriers, and its order are before DONE is raised. -/
theorem clearingsEndTheBuild : Obligations.ClearingsEndTheBuild := by
  intro s pkt b h hc y pack base₀ base
  have ht : base₀.clearedAt takeLaneOut b (pkt.u8 9) =
      (((base.clearedOut b).raise takeLaneOut { kind := .done, bay := b, order := y.order }).modBuild b (fun z =>
        { z.finishIdle with state := .idle, order := 0, committed := 0 })).bindingEvent takeLaneOut [b] :=
    (if_pos hc).trans (clearBay_eq takeLaneOut b (pkt.u8 9) base₀)
  refine ⟨_, base.clearedOut b, exec_report (exec_cleared pkt) h ht, ?_⟩
  have same : base = { base₀ with counters := base.counters } := by simp only [base]; split <;> rfl
  generalize base = q at same ⊢
  simp only [holdRec_clearedOut, carrier_clearedOut, build_clearedOut, order_clearedOut, Order.finished_eq]
  refine ⟨(clearedOut_eq b q).trans ?_, ?_⟩ <;> rw [same]
  · rfl
  · exact ⟨fun _ => rfl, fun _ => rfl, fun _ => rfl, fun _ => rfl, rfl⟩

end Sys2Proof.Machine

namespace Sys2Proof.Machine

variable {p : Part} {b : Nat} {off : LaneAction} {pkt : Packet}

/-! ### BLOCKED, UNBLOCKED and BAY_HOLD (R73, R75) -/

theorem flagOf_of_le {n : Nat} (h : n ≤ 1) : flagOf n = some (decide (n = 1)) := by
  interval_cases n <;> rfl

theorem flagOf_of_gt {n : Nat} (h : 1 < n) : flagOf n = none := by
  unfold flagOf
  split <;> first | omega | rfl

/-- A flag byte shows the value it was set from. -/
theorem bFlag_of_le {n : Nat} (h : n ≤ 1) : bFlag (decide (n = 1)) = b8 n := by
  interval_cases n <;> rfl

theorem bayHold_badIndex (h : bayKnown (pkt.u8 8) = false) : bayHold off pkt p = refuse .badIndex p := by
  simp [bayHold, bayNumber, h]

theorem bayHold_badValue (hb : bayKnown (pkt.u8 8) = true) (h : 1 < pkt.u8 9) :
    bayHold off pkt p = refuse .badValue p := by
  simp [bayHold, bayNumber, hb, flagOf_of_gt h]

/-- A binding event that names no bay does nothing. -/
@[simp] theorem bindingEvent_nil (p : Part) : p.bindingEvent off [] = p := rfl

theorem unheld_eq (p : Part) (b : Nat) (flag : Bool) : p.unheld b flag =
    if flag = false ∧ (p.build b).holdFlag = true ∧ (p.build b).state = .idle then [b] else [] := by
  simp only [Part.unheld, Bool.and_eq_true, Bool.not_eq_true', decide_eq_true_eq]
  exact if_congr (by tauto) rfl rfl

/-- An accepted BAY_HOLD sets the flag; clearing one that was set at an IDLE build is a binding event (R64, R73). -/
theorem bayHold_ok (hb : bayKnown (pkt.u8 8) = true) (h : pkt.u8 9 ≤ 1) :
    bayHold off pkt p = accept (b8 (pkt.u8 9) ++ b8 (p.build (pkt.u8 8)).state.code)
      (if pkt.u8 9 = 0 ∧ (p.build (pkt.u8 8)).holdFlag = true ∧ (p.build (pkt.u8 8)).state = .idle then
        (p.modBuild (pkt.u8 8) (fun x => { x with holdFlag := decide (pkt.u8 9 = 1) })).bindingEvent off [pkt.u8 8]
      else p.modBuild (pkt.u8 8) (fun x => { x with holdFlag := decide (pkt.u8 9 = 1) })) := by
  have hz : decide (pkt.u8 9 = 1) = false ↔ pkt.u8 9 = 0 := by simp; omega
  simp only [bayHold, bayNumber, hb, flagOf_of_le h, Part.holdFlagBytes, unheld_eq, Part.build_modBuild_self,
    bFlag_of_le h, hz, Bool.not_true, Bool.false_eq_true, if_false]
  split <;> rfl

/-! ### BAY_SERVICE (R71, R72) -/

theorem bayService_badIndex (h : bayKnown (pkt.u8 8) = false) : bayService off pkt p = refuse .badIndex p := by
  simp [bayService, bayNumber, h]

section Service

variable (hb : bayKnown (pkt.u8 8) = true)
include hb

theorem bayService_out (h : pkt.u8 9 = 0) : bayService off pkt p = bayOut (pkt.u8 8) p := by
  simp [bayService, bayNumber, hb, h]

theorem bayService_in (h : pkt.u8 9 = 1) : bayService off pkt p = bayIn off (pkt.u8 8) p := by
  simp [bayService, bayNumber, hb, h]

theorem bayService_badValue (h : 1 < pkt.u8 9) : bayService off pkt p = refuse .badValue p := by
  simp only [bayService, bayNumber, hb, Bool.not_true, Bool.false_eq_true, if_false]
  split
  · omega
  · omega
  · rfl

end Service

/-- The reply data of BAY_SERVICE, from the state and the pending-out mark (R71). -/
def serviceData (state : BuildState) (out : Bool) : List Byte := b8 state.code ++ b8 (if out then 1 else 0)

theorem bayIn_incomplete (hs : (p.build b).state = .outOfService)
    (hd : (p.bayDir b).diverter = 0 ∨ (p.bayDir b).bayNode = 0 ∨ (p.bayDir b).arch = 0) :
    bayIn off b p = refuse .badValue p := by
  simp [bayIn, hs, hd]

theorem bayIn_enters (hs : (p.build b).state = .outOfService) (h₁ : (p.bayDir b).diverter ≠ 0)
    (h₂ : (p.bayDir b).bayNode ≠ 0) (h₃ : (p.bayDir b).arch ≠ 0) :
    bayIn off b p = accept (serviceData .idle (p.build b).pendingOut)
      ((p.modBuild b (fun x => { x with state := .idle })).bindingEvent off [b]) := by
  simp [bayIn, hs, h₁, h₂, h₃, served, Part.serviceBytes, serviceData, bFlag]

theorem bayIn_draining (hs : (p.build b).state = .draining) :
    bayIn off b p = accept (serviceData .draining false) (p.modBuild b (fun x => { x with pendingOut := false })) := by
  simp [bayIn, hs, served, Part.serviceBytes, serviceData, bFlag]

theorem bayIn_serving (h₁ : (p.build b).state ≠ .outOfService) (h₂ : (p.build b).state ≠ .draining) :
    bayIn off b p = accept (serviceData (p.build b).state (p.build b).pendingOut) p := by
  unfold bayIn
  split
  · exact absurd ‹_› h₁
  · exact absurd ‹_› h₂
  · rfl

theorem bayOut_leaves (hs : (p.build b).state = .idle) (hl : (p.build b).hold = []) :
    bayOut b p = accept (serviceData .outOfService (p.build b).pendingOut)
      (p.modBuild b (fun x => { x with state := .outOfService })) := by
  simp [bayOut, hs, hl, served, Part.serviceBytes, serviceData, bFlag]

theorem bayOut_holding (hs : (p.build b).state = .idle) (hl : (p.build b).hold ≠ []) :
    bayOut b p = refuse .badState p := by
  simp [bayOut, hs, hl]

theorem bayOut_outOfService (hs : (p.build b).state = .outOfService) :
    bayOut b p = accept (serviceData .outOfService (p.build b).pendingOut) p := by
  simp [bayOut, hs, served, Part.serviceBytes, serviceData, bFlag]

theorem bayOut_draining (hs : (p.build b).state = .draining) :
    bayOut b p = accept (serviceData .draining true) (p.modBuild b (fun x => { x with pendingOut := true })) := by
  simp [bayOut, hs, served, Part.serviceBytes, serviceData, bFlag]

theorem bayOut_refused (h₁ : (p.build b).state ≠ .idle) (h₂ : (p.build b).state ≠ .outOfService)
    (h₃ : (p.build b).state ≠ .draining) : bayOut b p = refuse .badState p := by
  unfold bayOut
  split
  · exact absurd ‹_› h₁
  · exact absurd ‹_› h₂
  · exact absurd ‹_› h₃
  · rfl

/-- Settles O56: by the report, or by the request's checks in their order. -/
theorem bayFlagsAndServiceAreSet : Obligations.BayFlagsAndServiceAreSet := by
  refine ⟨fun s pkt b =>
      ⟨fun h => exec_report (exec_blocked pkt) h rfl, fun h => exec_report (exec_unblocked pkt) h rfl⟩,
    fun s pkt h => ?hold, fun s pkt h => ?service⟩
  case hold =>
    intro b y u
    refine ⟨fun hb => ?_, fun h₁ h₂ hv => ?_, fun h₁ h₂ hv => ?_⟩
    · exact exec_request_unchanged (exec_bayHold pkt) h (bayHold_badIndex (not_bayKnown_iff.mpr hb))
    · exact exec_request_unchanged (exec_bayHold pkt) h (bayHold_badValue (bayKnown_iff.mpr ⟨h₁, h₂⟩) hv)
    · exact exec_request_answered (exec_bayHold pkt) h (bayHold_ok (bayKnown_iff.mpr ⟨h₁, h₂⟩) hv)
  case service =>
    intro b y d data runs
    refine ⟨fun hb => ?_, fun h₁ h₂ => ?_⟩
    · exact exec_request_unchanged (exec_bayService pkt) h (bayService_badIndex (not_bayKnown_iff.mpr hb))
    · have hb : bayKnown b = true := bayKnown_iff.mpr ⟨h₁, h₂⟩
      refine ⟨fun hv => exec_request_unchanged (exec_bayService pkt) h (bayService_badValue hb hv), fun hv => ?into,
        fun hv => ?out⟩
      case into =>
        have unchanged : ∀ {st : Status} {l : List Byte}, bayIn takeLaneOut b (s.part.replied pkt .ok []) =
            ⟨st, l, s.part.replied pkt .ok []⟩ → runs (s.part.replied pkt st l) := fun e =>
          exec_request_unchanged (exec_bayService pkt) h ((bayService_in hb hv).trans e)
        refine ⟨fun hs hd => unchanged (bayIn_incomplete hs hd), fun hs h₁ h₂ h₃ => ?_, fun hs => ?_,
          fun hs hs' => unchanged (bayIn_serving hs hs')⟩
        · exact exec_request_answered (exec_bayService pkt) h ((bayService_in hb hv).trans (bayIn_enters hs h₁ h₂ h₃))
        · exact exec_request_changed (exec_bayService pkt) h rfl ((bayService_in hb hv).trans (bayIn_draining hs))
      case out =>
        have unchanged : ∀ {st : Status} {l : List Byte}, bayOut b (s.part.replied pkt .ok []) =
            ⟨st, l, s.part.replied pkt .ok []⟩ → runs (s.part.replied pkt st l) := fun e =>
          exec_request_unchanged (exec_bayService pkt) h ((bayService_out hb hv).trans e)
        refine ⟨fun hs hl => ?_, fun hs hl => unchanged (bayOut_holding hs hl),
          fun hs => unchanged (bayOut_outOfService hs), fun hs => ?_,
          fun h₁ h₂ h₃ => unchanged (bayOut_refused h₁ h₂ h₃)⟩
        · exact exec_request_changed (exec_bayService pkt) h rfl ((bayService_out hb hv).trans (bayOut_leaves hs hl))
        · exact exec_request_changed (exec_bayService pkt) h rfl ((bayService_out hb hv).trans (bayOut_draining hs))

end Sys2Proof.Machine

namespace Sys2Proof.Machine

variable {p : Part} {l : Nat} {off : LaneAction} {pkt : Packet}

/-! ### LANE_STATE (R137) -/

/-- The reply data of LANE_STATE, from the lane alone (R137). -/
def laneData (z : Lane) : List Byte :=
  b8 (if z.online then 1 else 0) ++ b8 (if z.stockOut then 1 else 0) ++ b8 z.misses ++
    b8 (if z.busy = none then 0 else 1) ++ b16 z.queue.length

theorem laneReply_eq (p : Part) (l : Nat) : p.laneReply l = laneData (p.lane l) := by
  unfold Part.laneReply laneData bFlag
  cases h : (p.lane l).busy <;> simp [h]

theorem laneKnown_zero : laneKnown 0 = false := rfl

theorem laneKnown_u8 (h : pkt.u8 8 ≠ 0) : laneKnown (pkt.u8 8) = true := by
  have := Packet.u8_lt pkt 8
  simp only [laneKnown, Bool.and_eq_true, decide_eq_true_eq]
  omega

/-- The DEFERRED records of a list become QUEUED where they stand (R128). -/
def Part.undeferAll (rs : List Nat) (p : Part) : Part :=
  rs.foldl (fun q r => if (q.call r).state = .deferred then q.undefer r else q) p

@[simp] theorem lane_undeferAll (rs : List Nat) (p : Part) (a : Nat) : (p.undeferAll rs).lane a = p.lane a :=
  foldl_rel (R := fun p q => q.lane a = p.lane a) (fun _ => rfl) (fun h h' => h'.trans h)
    (fun q r => by split <;> rfl) rs p

/-- Only call records and lanes are not as they were. -/
def OnlyCalls (p q : Part) : Prop :=
  q = { p with calls := { p.calls with recs := q.calls.recs, lanes := q.calls.lanes } }

theorem OnlyCalls.trans {p q t : Part} (h : OnlyCalls p q) (h' : OnlyCalls q t) : OnlyCalls p t := by
  unfold OnlyCalls at *
  rw [h', h]

theorem onlyCalls_undeferAll (rs : List Nat) (p : Part) : OnlyCalls p (p.undeferAll rs) :=
  foldl_rel (R := OnlyCalls) (fun _ => rfl) OnlyCalls.trans (fun q r => by split <;> rfl) rs p

theorem call_undeferAll (rs : List Nat) (p : Part) (k : Nat) :
    (p.undeferAll rs).call k =
      if k ∈ rs ∧ (p.call k).state = .deferred then { p.call k with state := .queued, retry := .stopped }
      else p.call k := by
  induction rs generalizing p with
  | nil => simp [Part.undeferAll]
  | cons r rs ih =>
    rw [Part.undeferAll, List.foldl_cons, ← Part.undeferAll, ih]
    by_cases hd : (p.call r).state = .deferred <;> by_cases hk : k = r
    · subst hk
      simp [hd, Part.undefer]
    · simp [hd, hk, Part.undefer, Part.call_modCall]
    · subst hk
      simp [hd]
    · simp [hd, hk]

theorem undeferAll_replied (rs : List Nat) (p : Part) (st : Status) (data : List Byte) :
    (p.replied pkt st data).undeferAll rs = (p.undeferAll rs).replied pkt st data := by
  induction rs generalizing p with
  | nil => rfl
  | cons r rs ih =>
    have same : (p.replied pkt st data).call r = p.call r := rfl
    by_cases h : (p.call r).state = .deferred
    · simp only [Part.undeferAll, List.foldl_cons, same, if_pos h]
      exact ih (p.undefer r)
    · simp only [Part.undeferAll, List.foldl_cons, same, if_neg h]
      exact ih _

theorem clearStockOut_stocked (h : (p.lane l).stockOut = false) : p.clearStockOut l = p := by
  simp [Part.clearStockOut, h]

theorem clearStockOut_empty (h : (p.lane l).stockOut = true) :
    p.clearStockOut l = (p.modLane l (fun x => { x with stockOut := false })).undeferAll (p.lane l).queue := by
  simp [Part.clearStockOut, h, Part.undeferAll]

theorem laneState_badIndex (h : pkt.u8 8 = 0) : laneState off pkt p = refuse .badIndex p := by
  simp [laneState, h, laneKnown_zero]

section Known

variable (hl : pkt.u8 8 ≠ 0)
include hl

theorem laneState_badValue (h : 2 < pkt.u8 9) : laneState off pkt p = refuse .badValue p := by
  simp only [laneState, laneKnown_u8 hl, Bool.not_true, Bool.false_eq_true, if_false]
  split <;> first | omega | rfl

theorem laneState_noNode (h : pkt.u8 9 = 1) (hn : (p.laneDir (pkt.u8 8)).node = 0) :
    laneState off pkt p = refuse .badValue p := by
  simp [laneState, laneKnown_u8 hl, h, hn]

theorem laneState_online (h : pkt.u8 9 = 1) (hn : (p.laneDir (pkt.u8 8)).node ≠ 0) :
    laneState off pkt p = accept (laneData { p.lane (pkt.u8 8) with online := true, misses := 0 })
      (p.modLane (pkt.u8 8) (fun x => { x with online := true, misses := 0 })) := by
  simp [laneState, laneKnown_u8 hl, h, hn, laneReply_eq]

theorem laneState_stocked (h : pkt.u8 9 = 2) :
    laneState off pkt p =
      accept (laneData ((p.clearStockOut (pkt.u8 8)).lane (pkt.u8 8))) (p.clearStockOut (pkt.u8 8)) := by
  simp [laneState, laneKnown_u8 hl, h, laneReply_eq]

theorem laneState_alreadyOffline (h : pkt.u8 9 = 0) (ho : (p.lane (pkt.u8 8)).online = false) :
    laneState off pkt p = accept (laneData (p.lane (pkt.u8 8))) p := by
  simp [laneState, laneKnown_u8 hl, h, laneReply_eq, ho]

theorem laneState_offline (h : pkt.u8 9 = 0) (ho : (p.lane (pkt.u8 8)).online = true) :
    laneState off pkt p =
      accept (laneData ((p.goOffline off (pkt.u8 8)).lane (pkt.u8 8))) (p.goOffline off (pkt.u8 8)) := by
  simp [laneState, laneKnown_u8 hl, h, laneReply_eq, ho]

end Known

/-- Settles O60: by the action the request asks for. -/
theorem laneStateSetsTheLane : Obligations.LaneStateSetsTheLane := by
  intro s pkt h l x data runs
  refine ⟨fun hl => ?_, fun hl ha => ?_, fun hl ha hn => ?_, fun hl ha hn => ?online, fun hl ha he => ?stocked,
    fun hl ha he => ?restocked, fun hl ha ho => ?_, fun hl ha ho => ?_⟩
  · exact exec_request_unchanged (exec_laneState pkt) h (laneState_badIndex hl)
  · exact exec_request_unchanged (exec_laneState pkt) h (laneState_badValue hl ha)
  · exact exec_request_unchanged (exec_laneState pkt) h (laneState_noNode hl ha hn)
  case online => exact exec_request_changed (exec_laneState pkt) h rfl (laneState_online hl ha hn)
  case stocked =>
    refine exec_request_unchanged (exec_laneState pkt) h ((laneState_stocked hl ha).trans ?_)
    rw [clearStockOut_stocked (by exact he)]
    rfl
  case restocked =>
    have only : OnlyCalls s.part (s.part.clearStockOut l) := by
      rw [clearStockOut_empty he]
      exact OnlyCalls.trans (q := s.part.modLane l (fun x => { x with stockOut := false })) rfl
        (onlyCalls_undeferAll _ _)
    refine ⟨s.part.clearStockOut l, exec_request_changed (exec_laneState pkt) h ?_
      ((laneState_stocked hl ha).trans ?_), only, fun a => ?_, fun r => ?_⟩
    · rw [only]
    · have clear : (s.part.replied pkt .ok []).clearStockOut l = (s.part.clearStockOut l).replied pkt .ok [] := by
        rw [clearStockOut_empty he, clearStockOut_empty (by exact he), ← undeferAll_replied]
        rfl
      have lane : ((s.part.clearStockOut l).replied pkt .ok []).lane l = { x with stockOut := false } := by
        change (s.part.clearStockOut l).lane l = _
        simp [clearStockOut_empty he, x]
      rw [clear, lane]
      rfl
    · rw [clearStockOut_empty he, lane_undeferAll, Part.lane_modLane]
    · rw [clearStockOut_empty he, call_undeferAll]
      rfl
  · exact exec_request_unchanged (exec_laneState pkt) h (laneState_alreadyOffline hl ha ho)
  · exact exec_request_answered (exec_laneState pkt) h (laneState_offline hl ha ho)

end Sys2Proof.Machine

namespace Sys2Proof.Machine

/-! ### The first of the best -/

section Best

variable {α κ : Type} [LinearOrder κ] {better : α → α → Bool} {l : List α}

theorem best_eq_none_iff : best better l = none ↔ l = [] := by
  cases l with
  | nil => simp [best]
  | cons a l =>
    simp only [best]
    split
    · simp
    · split <;> simp

/-- Where the comparison is that of a key, the choice has the least key of the list, and every earlier element a greater
one. -/
theorem best_least (key : α → κ) (hk : ∀ x ∈ l, ∀ y ∈ l, (better x y = true ↔ key x < key y)) {m : α}
    (h : best better l = some m) :
    ∃ front back, l = front ++ m :: back ∧ (∀ x ∈ l, key m ≤ key x) ∧ ∀ x ∈ front, key m < key x := by
  induction l generalizing m with
  | nil => simp [best] at h
  | cons a l ih =>
    have hk' : ∀ x ∈ l, ∀ y ∈ l, (better x y = true ↔ key x < key y) := fun x hx y hy =>
      hk x (List.mem_cons_of_mem _ hx) y (List.mem_cons_of_mem _ hy)
    have first : (∀ x ∈ l, key a ≤ key x) → ∃ front back, a :: l = front ++ a :: back ∧
        (∀ x ∈ a :: l, key a ≤ key x) ∧ ∀ x ∈ front, key a < key x := fun hle =>
      ⟨[], l, rfl, by simpa using hle, by simp⟩
    simp only [best] at h
    cases hb : best better l with
    | none =>
      rw [hb] at h
      obtain rfl : a = m := Option.some.inj h
      rw [best_eq_none_iff] at hb
      exact first (by simp [hb])
    | some b =>
      obtain ⟨front, back, rfl, hle, hlt⟩ := ih hk' hb
      have hba := hk b (by simp) a (by simp)
      simp only [hb] at h
      split at h
      · next hbetter =>
        obtain rfl : b = m := Option.some.inj h
        have hlt' := hba.mp hbetter
        exact ⟨a :: front, back, rfl, by simpa using ⟨hlt'.le, by simpa using hle⟩, by simpa using ⟨hlt', hlt⟩⟩
      · next hbetter =>
        obtain rfl : a = m := Option.some.inj h
        have hab : key a ≤ key b := not_lt.mp (fun hlt' => hbetter (hba.mpr hlt'))
        exact first (fun x hx => hab.trans (hle x hx))

end Best

/-! ### Stores with rising keys -/

section Rising

variable {α : Type} {m : Map α}

theorem Map.mem_of_find? {k : Nat} {v : α} (h : Map.find? m k = some v) : (k, v) ∈ m := by
  induction m with
  | nil => simp at h
  | cons e m ih =>
    obtain ⟨j, w⟩ := e
    rw [Map.find?_cons] at h
    split at h
    · next hj =>
      obtain rfl : w = v := Option.some.inj h
      exact hj ▸ List.mem_cons_self
    · exact List.mem_cons_of_mem _ (ih h)

theorem Map.find?_of_mem (hr : Map.rising m = true) {k : Nat} {v : α} (h : (k, v) ∈ m) : Map.find? m k = some v := by
  induction m with
  | nil => simp at h
  | cons e m ih =>
    obtain ⟨j, w⟩ := e
    obtain ⟨hlt, hr'⟩ := (Map.rising_cons j w m).mp hr
    rw [Map.find?_cons]
    rcases List.mem_cons.mp h with he | hm
    · obtain ⟨rfl, rfl⟩ := Prod.mk.inj he
      simp
    · have := hlt _ hm
      rw [if_neg (by simp at this; omega), ih hr' hm]

theorem Map.find?_eq_some_iff_mem (hr : Map.rising m = true) {k : Nat} {v : α} :
    Map.find? m k = some v ↔ (k, v) ∈ m := ⟨Map.mem_of_find?, Map.find?_of_mem hr⟩

/-- Keys rise along the list. -/
theorem Map.pairwise_of_rising (hr : Map.rising m = true) : m.Pairwise (fun x y => x.1 < y.1) := by
  induction m with
  | nil => exact List.Pairwise.nil
  | cons e m ih =>
    obtain ⟨hlt, hr'⟩ := (Map.rising_cons e.1 e.2 m).mp hr
    exact List.Pairwise.cons hlt (ih hr')

end Rising

variable {p : Part} {b : Nat} {off : LaneAction} {pkt : Packet}

/-! ### ORDER_HEAD and ORDER_LINE (R57 to R59) -/

theorem clamp_eq {lo hi v : Nat} (h : lo ≤ hi) : clamp lo hi v = max lo (min hi v) := by
  unfold clamp
  omega

theorem headSane_iff : headSane pkt = true ↔
    pkt.u32 8 ≠ 0 ∧ pkt.u8 12 ≤ 3 ∧ pkt.u8 17 ≤ 63 ∧ 1 ≤ pkt.u8 20 ∧ pkt.u8 20 ≤ 16 ∧ pkt.u8 21 ≤ 1 := by
  simp only [headSane, Bool.and_eq_true, decide_eq_true_eq, and_assoc]
  rfl

theorem orderHead_badValue (h : ¬ headSane pkt = true) : orderHead pkt p = refuse .badValue p := by
  simp [orderHead, h]

theorem orderHead_full (h : headSane pkt = true) (hf : 1024 ≤ p.book.orders.length) :
    orderHead pkt p = refuse .full p := by
  simp [orderHead, h, Config.bookSize, hf]

theorem orderHead_duplicate (h : headSane pkt = true) (hf : p.book.orders.length < 1024)
    (ho : (p.order? (pkt.u32 8)).isSome = true) : orderHead pkt p = refuse .duplicate p := by
  simp [orderHead, h, Config.bookSize, orderNumber, ho, not_le.mpr hf]

theorem orderHead_ok (h : headSane pkt = true) (hf : p.book.orders.length < 1024) (ho : p.order? (pkt.u32 8) = none) :
    orderHead pkt p = accept (b32 (p.book.seq + 1).toNat ++ b16 (max 500 (min 30000 (pkt.u16 18))))
      { p with book :=
        { orders := Map.put p.book.orders (pkt.u32 8) (headOrder pkt (p.book.seq + 1)), seq := p.book.seq + 1 } } := by
  simp only [orderHead, h, Config.bookSize, orderNumber, ho, not_le.mpr hf, headOrder]
  simp [clamp_eq]

theorem lineSane_iff : p.lineSane pkt = true ↔
    pkt.u16 13 ≠ 0 ∧ pkt.u16 13 ≤ 8191 ∧ (p.article (pkt.u16 13)).valid = true ∧ pkt.u8 15 ≠ 0 ∧ pkt.u8 16 ≤ 2 := by
  simp [Part.lineSane, and_assoc]

theorem orderLine_unknown (ho : p.order? (pkt.u32 8) = none) : orderLine off pkt p = refuse .unknownOrder p := by
  simp [orderLine, orderNumber, ho]

section Line

variable {o : Order} (ho : p.order? (pkt.u32 8) = some o)
include ho

theorem orderLine_badState (h : o.state ≠ .draft) : orderLine off pkt p = refuse .badState p := by
  simp [orderLine, orderNumber, ho, h]

theorem orderLine_badIndex (h : o.state = .draft) (hi : o.declared ≤ pkt.u8 12) :
    orderLine off pkt p = refuse .badIndex p := by
  simp [orderLine, orderNumber, ho, h, hi]

variable (h : o.state = .draft) (hi : pkt.u8 12 < o.declared)
include h hi

theorem orderLine_badValue (hs : ¬ p.lineSane pkt = true) : orderLine off pkt p = refuse .badValue p := by
  simp [orderLine, orderNumber, ho, h, not_le.mpr hi, hs]

theorem orderLine_duplicate (hs : p.lineSane pkt = true) (hl : (Map.find? o.lines (pkt.u8 12)).isSome = true) :
    orderLine off pkt p = refuse .duplicate p := by
  simp [orderLine, orderNumber, ho, h, not_le.mpr hi, hs, hl]

/-- The last line of an order takes it to WAITING, a binding event behind the reply's data (R58, R59). -/
theorem orderLine_ok (hs : p.lineSane pkt = true) (hl : Map.find? o.lines (pkt.u8 12) = none) :
    orderLine off pkt p = accept (b8 (Map.put o.lines (pkt.u8 12) (sentLine pkt)).length ++
        b8 (o.addLine (pkt.u8 12) (sentLine pkt)).state.code ++ b8 (min 15 (pkt.u8 15)))
      (if (Map.put o.lines (pkt.u8 12) (sentLine pkt)).length = o.declared then
        (p.modOrder (pkt.u32 8) (fun _ => o.addLine (pkt.u8 12) (sentLine pkt))).bindingEvent off (List.range' 1 64)
      else p.modOrder (pkt.u32 8) (fun _ => o.addLine (pkt.u8 12) (sentLine pkt))) := by
  have waiting : (o.addLine (pkt.u8 12) (sentLine pkt)).state = .waiting ↔
      (Map.put o.lines (pkt.u8 12) (sentLine pkt)).length = o.declared := by
    simp [Order.addLine, h]
  simp only [orderLine, orderNumber, ho, h, not_le.mpr hi, hs, hl, waiting]
  rfl

end Line

theorem sentLine_eq {m : LineMode} (h : LineMode.ofCode (pkt.u8 16) = some m) : sentLine pkt =
    { article := pkt.u16 13, quantity := min 15 (pkt.u8 15), mode := m, uncalled := min 15 (pkt.u8 15) } := by
  simp [sentLine, newLine, h]

theorem addLine_eq {o : Order} (h : o.state = .draft) (i : Nat) (l : Line) : o.addLine i l =
    { o with lines := Map.put o.lines i l,
             state := if (Map.put o.lines i l).length = o.declared then .waiting else .draft } := by
  rw [Order.addLine, h]

/-- Settles O26: by the checks of each request in their order. -/
theorem orderRequestsLoadAnOrder : Obligations.OrderRequestsLoadAnOrder := by
  refine ⟨fun s pkt h => ?head, fun s pkt h => ⟨fun ho => ?unknown, fun o ho => ?line⟩⟩
  case head =>
    intro sane
    refine ⟨fun hs => ?_, fun hs hf => ?_, fun hs hf ho => ?_, fun hs hf ho => ?_⟩
    · exact exec_request_unchanged (exec_orderHead pkt) h (orderHead_badValue (headSane_iff.not.mpr hs))
    · exact exec_request_unchanged (exec_orderHead pkt) h (orderHead_full (headSane_iff.mpr hs) hf)
    · exact exec_request_unchanged (exec_orderHead pkt) h (orderHead_duplicate (headSane_iff.mpr hs) hf ho)
    · have ok := orderHead_ok (p := s.part.replied pkt .ok []) (headSane_iff.mpr hs) hf ho
      refine ⟨_, exec_request_changed (q := { s.part with book :=
        { orders := Map.put s.part.book.orders (pkt.u32 8) (headOrder pkt (s.part.book.seq + 1)),
          seq := s.part.book.seq + 1 } }) (exec_orderHead pkt) h rfl ok, rfl, rfl, fun n hn => ?_, ?_⟩
      · exact Map.find?_put_ne _ _ hn
      · refine (Map.find?_put_self _ _ _).trans ?_
        simp [headOrder, clamp_eq]
  case unknown =>
    exact exec_request_unchanged (exec_orderLine pkt) h (orderLine_unknown ho)
  case line =>
    intro a sane
    refine ⟨fun hd => ?_, fun hd hi => ?_, fun hd hi hs => ?_, fun hd hi hs hl => ?_, fun hd hi hs hl m hm => ?_⟩
    · exact exec_request_unchanged (exec_orderLine pkt) h (orderLine_badState ho hd)
    · exact exec_request_unchanged (exec_orderLine pkt) h (orderLine_badIndex ho hd hi)
    · exact exec_request_unchanged (exec_orderLine pkt) h (orderLine_badValue ho hd hi (lineSane_iff.not.mpr hs))
    · exact exec_request_unchanged (exec_orderLine pkt) h (orderLine_duplicate ho hd hi (lineSane_iff.mpr hs) hl)
    · have ok := orderLine_ok (off := takeLaneOut) (p := s.part.replied pkt .ok []) ho hd hi (lineSane_iff.mpr hs) hl
      rw [addLine_eq hd, sentLine_eq hm] at ok
      exact exec_request_answered (exec_orderLine pkt) h ok

/-! ### ORDER_CANCEL (R60) -/

theorem orderCancel_unknown (ho : p.order? (pkt.u32 8) = none) : orderCancel off pkt p = refuse .unknownOrder p := by
  simp [orderCancel, orderNumber, ho]

theorem modOrder_replied (n : Nat) (f : Order → Order) (st : Status) (data : List Byte) :
    (p.replied pkt st data).modOrder n f = (p.modOrder n f).replied pkt st data := by
  have same : (p.replied pkt st data).order? n = p.order? n := rfl
  unfold Part.modOrder
  rw [same]
  split <;> rfl

section Cancel

variable {o : Order} (ho : p.order? (pkt.u32 8) = some o)
include ho

theorem orderCancel_terminal (h : o.state.terminal = true) : orderCancel off pkt p = refuse .badState p := by
  simp [orderCancel, orderNumber, ho, h]

theorem orderCancel_clearing (h : o.state = .bound b) (hc : (p.build b).state = .clearing) :
    orderCancel off pkt p = refuse .badState p := by
  simp [orderCancel, orderNumber, ho, h, hc, OrderState.terminal]

theorem orderCancel_bound (h : o.state = .bound b) (hc : (p.build b).state ≠ .clearing) :
    orderCancel off pkt p = accept (b8 3 ++ b8 b) (p.abort off b .cancel) := by
  simp [orderCancel, orderNumber, ho, h, hc, OrderState.terminal, OrderState.code, OrderState.bay]

theorem orderCancel_unbound (h : o.state = .draft ∨ o.state = .waiting) :
    orderCancel off pkt p = accept (b8 o.state.code ++ b8 0)
      (p.modOrder (pkt.u32 8) (fun x => { x with state := .cancelled })) := by
  rcases h with h | h <;> simp [orderCancel, orderNumber, ho, h, OrderState.terminal, OrderState.bay]

end Cancel

/-- Settles O27: by the checks in their order. -/
theorem orderCancelEndsAnOrder : Obligations.OrderCancelEndsAnOrder := by
  intro s pkt h
  refine ⟨fun ho => ?_, fun o ho => ⟨fun ht => ?_, fun b hb hc => ?_, fun hu => ?_⟩⟩
  · exact exec_request_unchanged (exec_orderCancel pkt) h (orderCancel_unknown ho)
  · exact exec_request_unchanged (exec_orderCancel pkt) h (orderCancel_terminal ho (OrderState.terminal_iff.mpr ht))
  · exact exec_request_unchanged (exec_orderCancel pkt) h (orderCancel_clearing ho hb hc)
  · have ok := orderCancel_unbound (off := takeLaneOut) (p := s.part.replied pkt .ok []) ho hu
    rw [modOrder_replied] at ok
    exact exec_request_changed (exec_orderCancel pkt) h (by simp) ok

/-! ### The binding arbiter and the opening of a build (R64 to R66, R76) -/

/-- An order fits a bay whose zones hold every valid article of its lines (R65). -/
theorem orderFits_iff {o : Order} : p.orderFits b o = true ↔ (p.bayDir b).zones ≠ 0 ∧
    ∀ i l, (i, l) ∈ o.lines → (p.article l.article).valid = true →
      inZones (p.bayDir b).zones (p.article l.article).zone = true := by
  simp only [Part.orderFits, Bool.and_eq_true, decide_eq_true_eq, List.all_eq_true, Bool.or_eq_true, Bool.not_eq_true',
    Prod.forall, ← Bool.not_eq_true, imp_iff_not_or]

/-- Settles O30: the choice is the least key among the fitting orders, which the book lists with rising numbers. -/
theorem aBayReceivesTheMostUrgentFittingOrder : Obligations.ABayReceivesTheMostUrgentFittingOrder := by
  intro p b hr fitting
  have mem : ∀ n o, (n, o) ∈ p.book.orders.filter (fun kv => kv.2.state = .waiting && p.orderFits b kv.2) ↔
      p.order? n = some o ∧ fitting o := fun n o => by
    rw [List.mem_filter, ← Map.find?_eq_some_iff_mem hr, Bool.and_eq_true, decide_eq_true_eq, orderFits_iff]
    rfl
  refine ⟨?none, fun n hn => ?some⟩
  case none =>
    rw [Part.chosenOrder, Option.map_eq_none_iff, best_eq_none_iff, List.eq_nil_iff_forall_not_mem]
    simp only [Prod.forall, mem, not_and]
  case some =>
    obtain ⟨⟨n', o⟩, hbest, rfl⟩ := Option.map_eq_some_iff.mp hn
    obtain ⟨front, back, hsplit, hle, hlt⟩ := best_least (fun kv : Nat × Order => kv.2.urgencyKey)
      (fun x _ y _ => moreUrgent_iff_urgencyKey_lt x.2 y.2) hbest
    obtain ⟨ho, hfit⟩ := (mem n' o).mp (hsplit ▸ by simp)
    refine ⟨o, ho, hfit, fun m o' hm hfit' => ?_⟩
    have hmem := (mem m o').mpr ⟨hm, hfit'⟩
    have hkey : o.urgencyKey ≤ o'.urgencyKey := hle _ hmem
    refine ⟨?_, fun hnot => ?_⟩
    · rw [← Bool.not_eq_true, moreUrgent_iff_urgencyKey_lt]
      exact not_lt.mpr hkey
    · rw [← Bool.not_eq_true, moreUrgent_iff_urgencyKey_lt] at hnot
      have later := List.pairwise_append.mp (hsplit ▸ Map.pairwise_of_rising (Map.rising_filter hr _))
      rw [hsplit, List.mem_append, List.mem_cons] at hmem
      rcases hmem with hfront | heq | hback
      · exact absurd (hlt _ hfront) hnot
      · exact (Prod.mk.inj heq).1.ge
      · exact ((List.pairwise_cons.mp later.2.1).1 _ hback).le

theorem candidate_iff : p.candidate b = true ↔
    (p.build b).state = .idle ∧ (p.build b).holdFlag = false ∧ p.mode = .run := by
  simp [Part.candidate, and_assoc]

theorem order?_modBuild (n a : Nat) (f : Build → Build) : (p.modBuild a f).order? n = p.order? n := rfl

/-- Binding resets the order's lines and opens the build (R66, R76). -/
theorem bind_eq {n : Nat} {o : Order} (h : p.order? n = some o) : p.bind off b n =
    (((o.lines.map Prod.fst).foldl (fun q i => q.request off b i)
      ((p.modOrder n (fun o => { o.resetLines with state := .bound b })).modBuild b (Build.opened n))).completionTest
        off b).raise off { kind := .bound, bay := b, order := n } := by
  have indices : ((Map.mapValues Line.reset o.lines).map Prod.fst) = o.lines.map Prod.fst := by
    simp [Map.mapValues]
  simp only [Part.bind, Part.openBuild, order?_modBuild, Part.order_q_modOrder, h, if_true, Option.map_some,
    Option.getD_some, Order.resetLines, indices]

/-- Settles O31: the arbiter serves the candidates of the event, and a build opens with its lines' requests. -/
theorem bindingsOpenABuild : Obligations.BindingsOpenABuild := by
  refine ⟨fun p bays => ?_, fun p b n o h => ⟨_, Part.Same.refl _, bind_eq h⟩⟩
  have candidates : p.candidate = fun b =>
      decide ((p.build b).state = .idle ∧ (p.build b).holdFlag = false ∧ p.mode = .run) :=
    funext fun b => Bool.eq_iff_iff.mpr (by rw [candidate_iff, decide_eq_true_eq])
  rw [Part.bindingEvent, candidates]
  rfl

end Sys2Proof.Machine

namespace Sys2Proof.Machine

variable {p : Part} {b d r : Nat} {off : LaneAction} {pkt : Packet}

/-! ### An accepted Tick (R15 to R17) -/

theorem Packet.u32_lt (pkt : Packet) (i : Nat) : pkt.u32 i < 2 ^ 32 := by
  have h₁ := Packet.u16_lt pkt i
  have h₂ := Packet.u16_lt pkt (i + 2)
  rw [Packet.u32]
  omega

theorem toNat_tickNumber (pkt : Packet) : (BitVec.ofNat 32 (pkt.u32 6)).toNat = pkt.u32 6 := by
  rw [BitVec.toNat_ofNat, Nat.mod_eq_of_lt (Packet.u32_lt pkt 6)]

theorem stepTo_invalid {h : HallTime} {t : Count32} (hv : h.valid = false) : h.stepTo t = some 1 := by
  simp [HallTime.stepTo, hv]

theorem stepTo_rises {h : HallTime} {t : Count32} (hv : h.valid = true) (ht : h.time.toNat < t.toNat) :
    h.stepTo t = some (min 16 (t.toNat - h.time.toNat)) := by
  simp [HallTime.stepTo, hv, ht, Config.maxTickStep]

theorem stepTo_falls {h : HallTime} {t : Count32} (hv : h.valid = true) (ht : t.toNat ≤ h.time.toNat) :
    h.stepTo t = none := by
  simp [HallTime.stepTo, hv, not_lt.mpr ht]

theorem Timer.advance_running (n v : Nat) :
    Timer.advance n (.running v) = if v ≤ n then .expired else .running (v - n) := by
  rw [Timer.advance]
  split <;> split <;> first | rfl | omega

theorem build_advanceTimers (n a : Nat) : (p.advanceTimers n).build a = (p.build a).advance n :=
  Map.get_mapValues ({} : Build) (Build.advance n) rfl p.builds a

theorem call_advanceTimers (n a : Nat) : (p.advanceTimers n).call a = (p.call a).advance n :=
  Map.get_mapValues ({} : Call) (Call.advance n) rfl p.calls.recs a

theorem carrier_advanceTimers (n a : Nat) : (p.advanceTimers n).carrier a = (p.carrier a).advance n :=
  Map.get_mapValues ({} : Carrier) (Carrier.advance n) rfl p.carriers a

theorem noticeQueue_advanceTimers (n a : Nat) : (p.advanceTimers n).noticeQueue a = (p.noticeQueue a).advance n :=
  Map.get_mapValues ({} : NoticeQueue) (NoticeQueue.advance n) rfl p.notices a

/-- A Tick that Hall Time accepts advances every timer by its step (R15 to R17). -/
theorem exec_tick_accepted {s : State} {n : Nat} (h : s.part.hears pkt)
    (hn : s.part.hall.stepTo (BitVec.ofNat 32 (pkt.u32 6)) = some n) :
    exec (.tick pkt) s = .next { s with part := (Part.advanceTimers n
      { s.part.passOn .tick pkt with hall := ⟨BitVec.ofNat 32 (pkt.u32 6), true⟩ }) } := by
  refine (exec_tick pkt s).trans (State.onPart_eq ((Part.deliver_tick h).trans ?_))
  rw [Part.takeTick, show (s.part.passOn .tick pkt).hall = s.part.hall from rfl, hn]

/-- Settles O32: by the stores' pointwise images under the advance. -/
theorem ticksAdvanceEveryTimer : Obligations.TicksAdvanceEveryTimer := by
  intro s pkt n h hn after
  have step : s.part.hall.stepTo (BitVec.ofNat 32 (pkt.u32 6)) = some n := by
    rcases hn with ⟨hv, rfl⟩ | ⟨hv, hlt, rfl⟩
    · exact stepTo_invalid hv
    · rw [stepTo_rises hv (by rw [toNat_tickNumber]; exact hlt), toNat_tickNumber]
  have timers : Timer.advance n = after := funext fun x => by
    cases x with
    | stopped => rfl
    | running v => exact Timer.advance_running n v
    | expired => rfl
  refine ⟨_, exec_tick_accepted h step, rfl, fun b => ?_, fun r => ?_, fun c => ?_, fun d => ?_⟩
  · exact (build_advanceTimers n b).trans (by rw [Build.advance, timers]; rfl)
  · exact (call_advanceTimers n r).trans (by rw [Call.advance, timers]; rfl)
  · refine (carrier_advanceTimers n c).trans ?_
    rw [Carrier.advance, timers]
    rfl
  · exact (noticeQueue_advanceTimers n d).trans (by rw [NoticeQueue.advance, timers]; rfl)

/-! ### Notices (R191 to R195) -/

/-- Only the insert queues and the notice destinations are not as they were. -/
def OnlyNotices (p q : Part) : Prop := q = { p with ring := q.ring, notices := q.notices }

theorem OnlyNotices.trans {p q t : Part} (h : OnlyNotices p q) (h' : OnlyNotices q t) : OnlyNotices p t := by
  unfold OnlyNotices at *
  rw [h', h]

theorem onlyNotices_post {x : Post} {q : Part} (h : p.post x = some q) : OnlyNotices p q := by
  rcases Part.post_some h with ⟨-, -, rfl⟩ | ⟨-, -, rfl⟩ <;> rfl

theorem onlyNotices_attempts (d : Nat) (l : List NoticeEntry) (p : Part) : OnlyNotices p (p.attempts d l) := by
  induction l generalizing p with
  | nil => rfl
  | cons e l ih =>
    rw [Part.attempts]
    split
    · rfl
    · split
      · rfl
      · next q hq =>
        split
        · exact OnlyNotices.trans (onlyNotices_post hq) (by rfl)
        · exact OnlyNotices.trans (onlyNotices_post hq) (OnlyNotices.trans (by rfl) (ih _))

section Notify

variable {n : Notice}

theorem notify_unrouted (h : (p.routing n.kind).dest = 0) : p.notify n = p := by
  simp [Part.notify, h]

theorem notify_full (h : (p.routing n.kind).dest ≠ 0)
    (hq : 16 ≤ (p.noticeQueue (p.routing n.kind).dest).queue.length) :
    p.notify n = p.setNoticeQueue (p.routing n.kind).dest { p.noticeQueue (p.routing n.kind).dest with
      lost := min 255 ((p.noticeQueue (p.routing n.kind).dest).lost + 1) } := by
  simp [Part.notify, h, Part.queueNotice, Config.noticeQueueSize, Config.lostMax, not_lt.mpr hq]

/-- A notice that finds room joins the tail with its user tags and the hall tick (R192). -/
def Part.noticeJoined (n : Notice) (p : Part) : Part :=
  p.setNoticeQueue (p.routing n.kind).dest { p.noticeQueue (p.routing n.kind).dest with
    queue := (p.noticeQueue (p.routing n.kind).dest).queue ++ [⟨n, (p.routing n.kind).tags, p.hall.time⟩] }

section Room

variable (h : (p.routing n.kind).dest ≠ 0) (hq : (p.noticeQueue (p.routing n.kind).dest).queue.length < 16)
include h hq

theorem notify_busy (hs : (p.noticeQueue (p.routing n.kind).dest).state ≠ .idle) :
    p.notify n = p.noticeJoined n := by
  simp [Part.notify, h, Part.queueNotice, Config.noticeQueueSize, hq, hs, Part.noticeJoined]

theorem notify_idle (hs : (p.noticeQueue (p.routing n.kind).dest).state = .idle) :
    p.notify n = (p.noticeJoined n).postAttempt (p.routing n.kind).dest := by
  simp [Part.notify, h, Part.queueNotice, Config.noticeQueueSize, hq, hs, Part.noticeJoined]

end Room

theorem onlyNotices_notify (n : Notice) (p : Part) : OnlyNotices p (p.notify n) := by
  by_cases h : (p.routing n.kind).dest = 0
  · rw [notify_unrouted h]
    rfl
  by_cases hq : (p.noticeQueue (p.routing n.kind).dest).queue.length < 16
  · by_cases hs : (p.noticeQueue (p.routing n.kind).dest).state = .idle
    · rw [notify_idle h hq hs]
      exact OnlyNotices.trans (q := p.noticeJoined n) rfl (onlyNotices_attempts _ _ _)
    · rw [notify_busy h hq hs]
      rfl
  · rw [notify_full h (not_lt.mp hq)]
    rfl

theorem routing_notify (n : Notice) (k : NoticeKind) (p : Part) : (p.notify n).routing k = p.routing k := by
  rw [onlyNotices_notify n p]
  rfl

theorem lane_notify (n : Notice) (l : Nat) (p : Part) : (p.notify n).lane l = p.lane l := by
  rw [onlyNotices_notify n p]
  rfl

theorem routeAction_none (h : (p.routing n.kind).action = .none) : p.routeAction off n = p := by
  simp [Part.routeAction, h]

theorem routeAction_holdBay (h : (p.routing n.kind).action = .holdBay) : p.routeAction off n =
    if n.bay = 0 then p else p.modBuild n.bay (fun y => { y with holdFlag := true }) := by
  simp [Part.routeAction, h]

theorem routeAction_laneOffline (h : (p.routing n.kind).action = .laneOffline) : p.routeAction off n =
    if n.namedLane ≠ 0 ∧ (p.lane n.namedLane).online = true then off n.namedLane p else p := by
  simp [Part.routeAction, h]

/-- A notice that names neither a bay nor a lane has no action (R193, R194). -/
theorem raise_unnamed (hb : n.bay = 0) (hl : n.lane = 0) : p.raise off n = p.notify n := by
  have lane : n.namedLane = 0 := by simp [Notice.namedLane, hl]
  rw [Part.raise]
  cases h : ((p.notify n).routing n.kind).action with
  | none => exact routeAction_none h
  | holdBay => rw [routeAction_holdBay h, if_pos hb]
  | laneOffline => rw [routeAction_laneOffline h, if_neg (by simp [lane])]

end Notify

/-- A Tick that does not rise is counted and noticed (R15, R16). -/
theorem exec_tick_fault {s : State} (h : s.part.hears pkt) (hv : s.part.hall.valid = true)
    (ht : pkt.u32 6 ≤ s.part.hall.time.toNat) :
    exec (.tick pkt) s =
      .next { s with part := ((s.part.passOn .tick pkt).count .tickFaults).notify { kind := .tickFault } } := by
  refine (exec_tick pkt s).trans (State.onPart_eq ((Part.deliver_tick h).trans ?_))
  rw [Part.takeTick, show (s.part.passOn .tick pkt).hall = s.part.hall from rfl,
    stepTo_falls hv (by rw [toNat_tickNumber]; exact ht)]
  exact raise_unnamed rfl rfl

theorem pacingExpires_idle (h : (p.noticeQueue d).timer ≠ .expired ∨ (p.noticeQueue d).state ≠ .pacing) :
    p.pacingExpires d = p := by
  rw [Part.pacingExpires, if_neg (by tauto)]

theorem pacingExpires_expired (ht : (p.noticeQueue d).timer = .expired) (hs : (p.noticeQueue d).state = .pacing) :
    p.pacingExpires d = p.postAttempt d := by
  rw [Part.pacingExpires, if_pos ⟨ht, hs⟩]

/-- Settles O33: by what queueing the notice does, and by the post attempt of an expiry. -/
theorem noticesAreQueuedAndPosted : Obligations.NoticesAreQueuedAndPosted := by
  refine ⟨fun s pkt h hv ht => ?fault, fun s d h => ⟨fun hi => ?_, fun ht hs => ?_⟩⟩
  case fault =>
    intro base route d q e leaves
    have run := exec_tick_fault h hv ht
    refine ⟨fun hd => ?_, fun hd hq => ⟨_, run, ?_⟩, fun hd hq hs => ⟨_, run, ?_⟩, fun hd hq hs => ⟨_, run, ?_⟩⟩
    · rwa [notify_unrouted (by exact hd)] at run
    · exact Part.Same.of_eq (notify_full (by exact hd) (by exact hq))
    · exact Part.Same.of_eq (notify_busy (by exact hd) (by exact hq) (by exact hs))
    · rw [notify_idle (by exact hd) (by exact hq) (by exact hs)]
      exact postAttempt_triesToPost _ _
  · exact exec_expiry (exec_pacingTimeout d) h (pacingExpires_idle hi)
  · exact ⟨_, exec_expiry (exec_pacingTimeout d) h (pacingExpires_expired ht hs), postAttempt_triesToPost d _⟩

/-- Settles O34: the notice is queued, and the action of its kind follows. -/
theorem raisedNoticesAreQueuedAndActedOn : Obligations.RaisedNoticesAreQueuedAndActedOn := by
  intro p n route d q e lane t
  refine ⟨p.notify n, ⟨notify_unrouted, fun hd hq => Part.Same.of_eq (notify_full hd hq),
    fun hd hq hs => Part.Same.of_eq (notify_busy hd hq hs), fun hd hq hs => ?_⟩, fun ha => ?_, fun ha => ?_,
    fun ha => ?_⟩
  · rw [notify_idle hd hq hs]
    exact postAttempt_triesToPost _ _
  · exact routeAction_none ((congrArg Routing.action (routing_notify n n.kind p)).trans ha)
  · have act := routeAction_holdBay (off := takeLaneOut)
      ((congrArg Routing.action (routing_notify n n.kind p)).trans ha)
    exact ⟨fun hb => act.trans (if_pos hb), fun hb => Part.Same.of_eq (act.trans (if_neg hb))⟩
  · have act := routeAction_laneOffline (off := takeLaneOut)
      ((congrArg Routing.action (routing_notify n n.kind p)).trans ha)
    rw [lane_notify] at act
    refine ⟨fun hl => act.trans (if_neg ?_), fun hl ho => act.trans (if_pos ⟨hl, ho⟩)⟩
    rintro ⟨hl', ho⟩
    rcases hl with hl | hl
    · exact hl' hl
    · exact absurd ho (by rw [show n.namedLane = lane from rfl, hl]; decide)

/-! ### Call timers and lost calls (R9, R136 to R140) -/

theorem callReturned_matched (hs : (p.call (tagIndex (pkt.u16 6))).state = .sent)
    (hg : (p.call (tagIndex (pkt.u16 6))).generation = tagHigh (pkt.u16 6)) :
    p.callReturned off pkt = p.sentLost off (tagIndex (pkt.u16 6)) := if_pos ⟨hs, hg⟩

theorem callReturned_unmatched (h : (p.call (tagIndex (pkt.u16 6))).state ≠ .sent ∨
    (p.call (tagIndex (pkt.u16 6))).generation ≠ tagHigh (pkt.u16 6)) : p.callReturned off pkt = p :=
  if_neg (by tauto)

theorem answerExpires_running (h : (p.call r).answer ≠ .expired) : p.answerExpires off r = p := if_neg h

theorem answerExpires_sent (h : (p.call r).answer = .expired) (hs : (p.call r).state = .sent) :
    p.answerExpires off r = p.sentLost off r := by
  simp [Part.answerExpires, h, hs]

theorem answerExpires_orphan (h : (p.call r).answer = .expired) (hs : (p.call r).state = .orphan) :
    p.answerExpires off r = p.endOrphan off r := by
  simp [Part.answerExpires, h, hs]

theorem retryExpires_deferred (h : (p.call r).retry = .expired) (hs : (p.call r).state = .deferred) :
    p.retryExpires r = p.undefer r := if_pos ⟨h, hs⟩

theorem retryExpires_running (h : (p.call r).retry ≠ .expired) : p.retryExpires r = p := if_neg (by tauto)

theorem persistExpires_running (h : (p.call r).persist ≠ .expired) : p.persistExpires off r = p := if_neg h

theorem persistExpires_sent (h : (p.call r).persist = .expired) (hs : (p.call r).state = .sent) :
    p.persistExpires off r = p.modCall r (fun x => { x with expire := true, persist := .stopped }) := by
  simp [Part.persistExpires, h, hs]

theorem persistExpires_waiting (h : (p.call r).persist = .expired)
    (hs : (p.call r).state = .queued ∨ (p.call r).state = .deferred) :
    p.persistExpires off r = p.goShort off r .persistTimeout (p.call r).lane := by
  rcases hs with hs | hs <;> simp [Part.persistExpires, h, hs]

/-- Settles O39: by the timer that expired and the state of its record. -/
theorem callTimersAndLostCalls : Obligations.CallTimersAndLostCalls := by
  refine ⟨fun s pkt h => ?undelivered, fun s r h => ?timers⟩
  case undelivered =>
    refine ⟨fun hs hg => ⟨_, State.onPart_eq ((Part.ownKind_returned h).trans (callReturned_matched hs hg)), ?_⟩,
      fun hu => State.onPart_eq ((Part.ownKind_returned h).trans (callReturned_unmatched hu))⟩
    exact sentLost_lostCall _ _
  case timers =>
    refine ⟨fun ha => ?_, fun ha hs => ?_, fun ha hs => ?_, fun hr hs => ?_, fun hr => ?_, fun hp => ?_,
      fun hp hs => ?_, fun hp hs => ?_⟩
    · exact exec_expiry (exec_answerTimeout r) h (answerExpires_running ha)
    · exact ⟨_, exec_expiry (exec_answerTimeout r) h (answerExpires_sent ha hs), sentLost_lostCall r s.part⟩
    · exact ⟨_, _, exec_expiry (exec_answerTimeout r) h (answerExpires_orphan ha hs), Part.Same.refl _, rfl⟩
    · exact exec_expiry (exec_retryTimeout r) h (retryExpires_deferred hr hs)
    · exact exec_expiry (exec_retryTimeout r) h (retryExpires_running hr)
    · exact exec_expiry (exec_persistTimeout r) h (persistExpires_running hp)
    · exact exec_expiry (exec_persistTimeout r) h (persistExpires_sent hp hs)
    · exact ⟨_, exec_expiry (exec_persistTimeout r) h (persistExpires_waiting hp hs), goShort_endsShort _ _ _ _ _ rfl⟩

end Sys2Proof.Machine

namespace Sys2Proof.Machine

variable {p : Part} {b i r : Nat} {off : LaneAction}

/-! ### Lines changed twice -/

theorem Map.put_put {α : Type} (m : Map α) (k : Nat) (v w : α) : Map.put (Map.put m k v) k w = Map.put m k w := by
  induction m with
  | nil => simp [Map.put]
  | cons e m ih =>
    obtain ⟨j, x⟩ := e
    rcases lt_trichotomy k j with h | rfl | h
    · simp [Map.put, h]
    · simp [Map.put]
    · simp [Map.put, not_lt.mpr h.le, h.ne', ih]

/-- A line of an order, changed; an index without a line changes nothing. -/
def Order.withLine (i : Nat) (f : Line → Line) (o : Order) : Order :=
  match Map.find? o.lines i with
  | none => o
  | some l => { o with lines := Map.put o.lines i (f l) }

theorem modLine_eq (b i : Nat) (f : Line → Line) (p : Part) :
    p.modLine b i f = p.modOrder (p.build b).order (Order.withLine i f) := rfl

theorem withLine_withLine (i : Nat) (f g : Line → Line) (o : Order) :
    (o.withLine i f).withLine i g = o.withLine i (g ∘ f) := by
  cases h : Map.find? o.lines i with
  | none => simp [Order.withLine, h]
  | some l => simp [Order.withLine, h, Map.put_put]

theorem find?_withLine (i : Nat) (f : Line → Line) (o : Order) :
    Map.find? (o.withLine i f).lines i = (Map.find? o.lines i).map f := by
  cases h : Map.find? o.lines i with
  | none => simp [Order.withLine, h]
  | some l => simp [Order.withLine, h]

theorem modOrder_modOrder (n : Nat) (f g : Order → Order) (p : Part) :
    (p.modOrder n f).modOrder n g = p.modOrder n (g ∘ f) := by
  cases h : p.order? n with
  | none => simp [Part.modOrder, h]
  | some o =>
    have h' : (p.modOrder n f).order? n = some (f o) := by rw [Part.order_q_modOrder, if_pos rfl, h]; rfl
    rw [Part.modOrder, h']
    simp [Part.modOrder, h, Map.put_put]

@[simp] theorem build_modLine (b i : Nat) (f : Line → Line) (a : Nat) : (p.modLine b i f).build a = p.build a :=
  Part.build_modOrder _ _ _ _

theorem modLine_modLine (b i : Nat) (f g : Line → Line) (p : Part) :
    (p.modLine b i f).modLine b i g = p.modLine b i (g ∘ f) := by
  rw [modLine_eq b i g, build_modLine, modLine_eq, modLine_eq, modOrder_modOrder]
  congr 1
  exact funext (withLine_withLine i f g)

theorem lineAt_modLine_self (b i : Nat) (f : Line → Line) (p : Part) :
    (p.modLine b i f).lineAt b i = (p.lineAt b i).map f := by
  rw [Part.lineAt, Part.orderAt, build_modLine, modLine_eq, Part.order_q_modOrder, if_pos rfl, Part.lineAt,
    Part.orderAt]
  cases p.order? (p.build b).order with
  | none => rfl
  | some o => exact find?_withLine i f o

theorem modCall_modLine (r : Nat) (f : Call → Call) (b i : Nat) (g : Line → Line) (p : Part) :
    (p.modLine b i g).modCall r f = (p.modCall r f).modLine b i g := by
  have same : (p.modCall r f).order? (p.build b).order = p.order? (p.build b).order := rfl
  rw [modLine_eq, modLine_eq, Part.build_modCall, Part.modOrder, Part.modOrder, same]
  split <;> rfl

/-- A shortage of a line that was changed before it is a shortage of the line with both changes. -/
theorem goesShort_modLine {f g : Line → Line} {lane : Nat} {t : Part} (hg : ∀ l, (g l).article = l.article)
    (h : (p.modLine b i g).goesShort off b i f lane t) : p.goesShort off b i (f ∘ g) lane t := by
  intro l hs hl
  obtain ⟨u, hu, ht⟩ := h (g l) (by rw [build_modLine]; exact hs) (by rw [lineAt_modLine_self, hl]; rfl)
  refine ⟨u, by rwa [modLine_modLine] at hu, ?_⟩
  rw [ht, hg, build_modLine]

/-! ### A request for a line's uncalled units (R121 to R123) -/

section Request

variable {o : Order} {l : Line} (ho : p.orderAt b = some o) (hl : Map.find? o.lines i = some l)
include ho hl

theorem request_idle (h : l.uncalled = 0 ∨ (p.build b).state ≠ .gathering) : p.request off b i = p := by
  simp only [Part.request, ho, hl, if_pos h]

variable (hk : 0 < l.uncalled) (hg : (p.build b).state = .gathering)
include hk hg

theorem request_plain (hm : l.mode ≠ .substitute) : p.request off b i = p.requestPlain off b i o.ceiling l := by
  simp only [Part.request, ho, hl, hg, hk.ne', hm, ne_eq, not_true_eq_false, or_self, if_false]

theorem request_substitute (hm : l.mode = .substitute) :
    p.request off b i = p.requestSubstitute off b i o.ceiling l := by
  simp only [Part.request, ho, hl, hg, hk.ne', hm, ne_eq, not_true_eq_false, or_self, if_false, if_true]

end Request

theorem short_zero (source : Place) (cause : ShortCause) (lane : Nat) : p.short off b i 0 source cause lane = p := by
  unfold Part.short
  split
  · rfl
  · exact if_pos (.inl rfl)

section Plain

variable {ceiling : Nat} {l : Line}

theorem requestPlain_invalid (h : (p.article l.article).valid = false) :
    p.requestPlain off b i ceiling l = p.short off b i l.uncalled .uncalled .invalidArticle 0 := by
  simp [Part.requestPlain, h]

variable (h : (p.article l.article).valid = true)
include h

theorem requestPlain_noLane (h₀ : (p.article l.article).homeLane = 0) :
    p.requestPlain off b i ceiling l = p.short off b i l.uncalled .uncalled .noLane 0 := by
  simp [Part.requestPlain, h, h₀]

variable (h₀ : (p.article l.article).homeLane ≠ 0)
include h₀

theorem requestPlain_offline (hm : l.mode = .home) (ho : (p.lane (p.article l.article).homeLane).online = false) :
    p.requestPlain off b i ceiling l =
      p.short off b i l.uncalled .uncalled .laneOffline (p.article l.article).homeLane := by
  simp [Part.requestPlain, h, h₀, hm, ho]

theorem requestPlain_empty (hm : l.mode = .home) (ho : (p.lane (p.article l.article).homeLane).online = true)
    (he : (p.lane (p.article l.article).homeLane).stockOut = true) :
    p.requestPlain off b i ceiling l =
      p.short off b i l.uncalled .uncalled .laneEmpty (p.article l.article).homeLane := by
  simp [Part.requestPlain, h, h₀, hm, ho, he]

variable (hs : l.mode = .home → (p.lane (p.article l.article).homeLane).online = true ∧
    (p.lane (p.article l.article).homeLane).stockOut = false)
include hs

/-- A line whose article and lane stand calls as many units as the ceiling allows; the others go short (R123). -/
theorem requestPlain_called {j : Nat}
    (hj : fitting (p.build b).committed l.uncalled (p.article l.article).nominal ceiling = j) :
    p.requestPlain off b i ceiling l =
      if j = 0 then p.short off b i (l.uncalled - j) .uncalled .weight 0
      else (p.short off b i (l.uncalled - j) .uncalled .weight 0).takeCall b i j l.mode 0 l.article := by
  by_cases hm : l.mode = .home
  · obtain ⟨ho, he⟩ := hs hm
    simp [Part.requestPlain, h, h₀, hm, ho, he, hj]
  · simp [Part.requestPlain, h, h₀, hm, hj]

end Plain

theorem fitting_all {W k n C : Nat} (h : W + k * n ≤ C) : fitting W k n C = k := by
  simp [fitting, fits, h]

theorem fitting_some {W k n C : Nat} (h : C < W + k * n) : fitting W k n C = if W < C then (C - W) / n else 0 := by
  simp [fitting, fits, not_le.mpr h]

/-- What does not fit leaves some unit out (R123). -/
theorem fitting_lt {W k n C : Nat} (hk : 0 < k) (h : C < W + k * n) : (if W < C then (C - W) / n else 0) < k := by
  split
  · exact Nat.div_lt_of_lt_mul (by rw [Nat.mul_comm]; omega)
  · exact hk

/-- Settles O35: by the tests of R121 to R123 in their order. -/
theorem callsAreCreatedForUncalledUnits : Obligations.CallsAreCreatedForUncalledUnits := by
  intro p b i o l ho hl t k W C goes
  refine ⟨request_idle ho hl, fun hk hg hm => ?plain, fun hk hg hm => ?substitute⟩
  case plain =>
    intro a x
    have ht : t = p.requestPlain takeLaneOut b i o.ceiling l := request_plain ho hl hk hg hm
    rw [ht]
    refine ⟨fun hv => ?_, fun hv h₀ => ?_, fun hv h₀ hm hon => ?_, fun hv h₀ hm hon he => ?_,
      fun hv h₀ hs => ⟨fun hfit => ?_, fun hover => ?_⟩⟩
    · rw [requestPlain_invalid hv]
      exact short_goesShort _ _ _ _ .uncalled .invalidArticle _ _ hk
    · rw [requestPlain_noLane hv h₀]
      exact short_goesShort _ _ _ _ .uncalled .noLane _ _ hk
    · rw [requestPlain_offline hv h₀ hm hon]
      exact short_goesShort _ _ _ _ .uncalled .laneOffline _ _ hk
    · rw [requestPlain_empty hv h₀ hm hon he]
      exact short_goesShort _ _ _ _ .uncalled .laneEmpty _ _ hk
    · rw [requestPlain_called hv h₀ hs (fitting_all hfit), if_neg hk.ne', Nat.sub_self, short_zero]
      exact takeCall_callTaken _ _ _ _ _ _ _
    · intro fit
      have called := requestPlain_called (off := takeLaneOut) (i := i) (j := fit) hv h₀ hs (fitting_some hover)
      refine ⟨fun hf => ?_, fun hf => ?_⟩
      · rw [called, if_pos hf, hf]
        exact short_goesShort _ _ _ _ .uncalled .weight _ _ hk
      · have hlt : 0 < k - fit := Nat.sub_pos_of_lt (fitting_lt hk hover)
        rw [called, if_neg hf.ne']
        exact ⟨_, short_goesShort _ _ _ _ .uncalled .weight _ _ hlt, takeCall_callTaken _ _ _ _ _ _ _⟩
  case substitute =>
    have ht : t = p.requestSubstitute takeLaneOut b i o.ceiling l := request_substitute ho hl hk hg hm
    rw [ht]
    refine ⟨fun pos art hs => ?_, fun hs => ?_⟩
    · rw [show p.requestSubstitute takeLaneOut b i o.ceiling l =
        (p.modLine b i (fun x => { x with member := pos })).takeCall b i l.uncalled .substitute pos art by
          rw [Part.requestSubstitute, hs]]
      exact takeCall_callTaken _ _ _ _ _ _ _
    · rw [show p.requestSubstitute takeLaneOut b i o.ceiling l =
        (p.modLine b i (fun x => { x with member := 8 })).short takeLaneOut b i l.uncalled .uncalled .noSubstitute 0 by
          rw [Part.requestSubstitute, hs]]
      exact goesShort_modLine (g := fun x => { x with member := 8 }) (fun _ => rfl)
        (short_goesShort _ _ _ _ .uncalled .noSubstitute _ _ hk)

end Sys2Proof.Machine

namespace Sys2Proof.Machine

variable {p : Part} {b i l r : Nat} {off : LaneAction}

/-! ### The SUBSTITUTE search (R122) -/

/-- A search along a range ends at the first number that the test accepts. -/
theorem findSome?_range'_eq_some {β : Type} {f : Nat → Option β} {s n : Nat} {v : β} :
    (List.range' s n).findSome? f = some v ↔
      ∃ k, s ≤ k ∧ k < s + n ∧ f k = some v ∧ ∀ j, s ≤ j → j < k → f j = none := by
  induction n generalizing s with
  | zero => simp; omega
  | succ n ih =>
    rw [List.range'_succ, List.findSome?_cons]
    cases hs : f s with
    | none =>
      refine ih.trans (exists_congr fun k => ⟨?_, ?_⟩)
      · rintro ⟨h₁, h₂, h₃, h₄⟩
        refine ⟨by omega, by omega, h₃, fun j hj hjk => ?_⟩
        rcases hj.eq_or_lt with rfl | hlt
        · exact hs
        · exact h₄ j hlt hjk
      · rintro ⟨h₁, h₂, h₃, h₄⟩
        have : s ≠ k := fun h => by rw [← h, hs] at h₃; cases h₃
        exact ⟨by omega, by omega, h₃, fun j hj hjk => h₄ j (by omega) hjk⟩
    | some w =>
      constructor
      · rintro ⟨rfl⟩
        exact ⟨s, le_rfl, by omega, hs, fun j h₁ h₂ => by omega⟩
      · rintro ⟨k, h₁, h₂, h₃, h₄⟩
        rcases h₁.eq_or_lt with rfl | hlt
        · exact hs.symm.trans h₃
        · rw [h₄ s le_rfl hlt] at hs
          cases hs

/-- What a search tests at a position: its article, and that the article passes (R122). -/
def Part.memberCall (p : Part) (b own k committed ceiling pos : Nat) : Option (Nat × Nat) :=
  match p.memberArticle own pos with
  | none => none
  | some art => if p.memberPasses b k committed ceiling art then some (pos, art) else none

theorem search_eq (p : Part) (b own k W C start : Nat) :
    p.search b own k W C start = (List.range' start (9 - start)).findSome? (p.memberCall b own k W C) := rfl

section Member

variable {own k W C pos art : Nat}

theorem memberCall_eq_some {v : Nat × Nat} : p.memberCall b own k W C pos = some v ↔
    v.1 = pos ∧ p.memberArticle own pos = some v.2 ∧ p.memberPasses b k W C v.2 = true := by
  obtain ⟨q, art⟩ := v
  unfold Part.memberCall
  cases h : p.memberArticle own pos with
  | none => simp
  | some a =>
    by_cases hp : p.memberPasses b k W C a = true
    · simp only [hp, if_true, Option.some.injEq, Prod.mk.injEq]
      constructor
      · rintro ⟨rfl, rfl⟩
        exact ⟨rfl, rfl, hp⟩
      · rintro ⟨rfl, rfl, -⟩
        exact ⟨rfl, rfl⟩
    · simp only [hp, if_false, Option.some.injEq, reduceCtorEq, false_iff]
      rintro ⟨-, rfl, h'⟩
      exact hp h'

theorem memberArticle_iff : p.memberArticle own pos = some art ↔
    (pos = 0 ∧ art = own) ∨ (1 ≤ pos ∧ art ≠ own ∧ (p.article own).valid = true ∧ (p.article own).group ≠ 0 ∧
      (p.group (p.article own).group)[pos - 1]? = some art) := by
  by_cases h₀ : pos = 0
  · subst h₀
    simp only [Part.memberArticle, if_true, Option.some.injEq, true_and, nonpos_iff_eq_zero, one_ne_zero, false_and,
      or_false]
    exact eq_comm
  have h₁ : 1 ≤ pos := Nat.one_le_iff_ne_zero.mpr h₀
  by_cases hg : (p.article own).valid = true ∧ (p.article own).group ≠ 0
  · have member : p.groupMember own pos = (p.group (p.article own).group)[pos - 1]? := by
      simp [Part.groupMember, hg, h₀]
    simp only [Part.memberArticle, h₀, if_false, member, false_and, false_or, h₁, hg, true_and]
    cases hm : (p.group (p.article own).group)[pos - 1]? with
    | none => simp
    | some m =>
      by_cases hmo : m = own
      · subst hmo
        simp only [if_true, reduceCtorEq, Option.some.injEq, false_iff, not_and]
        exact fun hne _ => Ne.symm hne
      · simp only [hmo, if_false, Option.some.injEq]
        exact ⟨fun e => ⟨e ▸ hmo, hg.2, e⟩, fun e => e.2.2⟩
  · have member : p.groupMember own pos = none := by
      rw [Part.groupMember]
      exact if_neg (by simp [h₀]; tauto)
    simp only [Part.memberArticle, h₀, if_false, member, false_and, false_or, reduceCtorEq, false_iff]
    tauto

theorem memberPasses_iff : p.memberPasses b k W C art = true ↔
    (p.article art).valid = true ∧ (p.article art).homeLane ≠ 0 ∧ (p.lane (p.article art).homeLane).online = true ∧
      (p.lane (p.article art).homeLane).stockOut = false ∧
      inZones (p.bayDir b).zones (p.article art).zone = true ∧ W + k * (p.article art).nominal ≤ C := by
  simp only [Part.memberPasses, fits, Bool.and_eq_true, decide_eq_true_eq, Bool.not_eq_true']
  tauto

theorem memberCall_eq_none : p.memberCall b own k W C pos = none ↔
    ∀ x, ¬ (p.memberArticle own pos = some x ∧ p.memberPasses b k W C x = true) := by
  rw [Option.eq_none_iff_forall_ne_some]
  constructor
  · exact fun h x hx => h (pos, x) (memberCall_eq_some.mpr ⟨rfl, hx⟩)
  · exact fun h v hv => h v.2 (memberCall_eq_some.mp hv).2

theorem search_eq_some {start : Nat} : p.search b own k W C start = some (pos, art) ↔
    start ≤ pos ∧ pos ≤ 8 ∧ (p.memberArticle own pos = some art ∧ p.memberPasses b k W C art = true) ∧
      ∀ q x, start ≤ q → q < pos → ¬ (p.memberArticle own q = some x ∧ p.memberPasses b k W C x = true) := by
  rw [search_eq, findSome?_range'_eq_some]
  constructor
  · rintro ⟨m, h₁, h₂, hm, hbefore⟩
    obtain ⟨rfl, hpass⟩ := memberCall_eq_some.mp hm
    exact ⟨h₁, by simp at h₂ ⊢; omega, hpass, fun q x hq hlt => memberCall_eq_none.mp (hbefore q hq hlt) x⟩
  · rintro ⟨h₁, h₂, hpass, hbefore⟩
    exact ⟨pos, h₁, by omega, memberCall_eq_some.mpr ⟨rfl, hpass⟩,
      fun j hj hlt => memberCall_eq_none.mpr fun x => hbefore j x hj hlt⟩

theorem search_eq_none {start : Nat} : p.search b own k W C start = none ↔
    ∀ q x, start ≤ q → q ≤ 8 → ¬ (p.memberArticle own q = some x ∧ p.memberPasses b k W C x = true) := by
  rw [search_eq, List.findSome?_eq_none_iff]
  simp only [List.mem_range'_1, memberCall_eq_none]
  exact ⟨fun h q x h₁ h₂ => h q ⟨h₁, by omega⟩ x, fun h q hq x => h q x hq.1 (by omega)⟩

/-- The search reads of the lanes only whether they are ONLINE and EMPTY. -/
theorem search_congr {q : Part} (ht : q.tables = p.tables) (ho : ∀ l, (q.lane l).online = (p.lane l).online)
    (hs : ∀ l, (q.lane l).stockOut = (p.lane l).stockOut) (b own k W C start : Nat) :
    q.search b own k W C start = p.search b own k W C start := by
  have article : q.article = p.article := funext fun a => by simp only [Part.article, ht]
  have group : q.group = p.group := funext fun g => by simp only [Part.group, ht]
  have bayDir : q.bayDir = p.bayDir := funext fun b => by simp only [Part.bayDir, ht]
  have members : q.memberArticle own = p.memberArticle own := funext fun pos => by
    rw [Part.memberArticle, Part.memberArticle, Part.groupMember, Part.groupMember, article, group]
  have passes : q.memberPasses b k W C = p.memberPasses b k W C := funext fun art => Bool.eq_iff_iff.mpr (by
    rw [memberPasses_iff, memberPasses_iff, article, bayDir, ho, hs])
  rw [Part.search, Part.search, members, passes]

end Member

/-! ### A record that moves on (R131) -/

/-- What a record that moves on gives up first: its place in its lane's queue and its weight (R131). -/
def Part.lowered (r : Nat) (p : Part) : Part :=
  (p.leaveLane (p.call r).lane r).weigh (p.call r).bay 0 ((p.call r).count * (p.call r).nominal)

theorem lowered_eq (r : Nat) (p : Part) : (p.leaveLane (p.call r).lane r).weigh (p.call r).bay 0
    ((p.call r).count * (p.call r).nominal) = p.lowered r := rfl

theorem search_lowered (r b own k W C start : Nat) :
    (p.lowered r).search b own k W C start = p.search b own k W C start := by
  refine search_congr (p := p) (q := p.lowered r) rfl (fun l => ?_) (fun l => ?_) b own k W C start
  all_goals
    have lane : (p.lowered r).lane l = (p.leaveLane (p.call r).lane r).lane l := rfl
    rw [lane, Part.leaveLane, Part.lane_modLane]
    split
    · next h => subst h; rfl
    · rfl

section MoveOn

variable {o : Order} {x : Line} (ho : p.orderAt (p.call r).bay = some o)
  (hl : p.lineAt (p.call r).bay (p.call r).line = some x)
include ho hl

theorem moveOn_found {pos art : Nat}
    (hf : p.search (p.call r).bay x.article (p.call r).count ((p.lowered r).build (p.call r).bay).committed o.ceiling
      (max ((p.call r).member + 1) x.member) = some (pos, art)) :
    p.moveOn off r =
      (((((p.lowered r).modLine (p.call r).bay (p.call r).line (fun x => { x with member := pos })).modCall r (fun y =>
        { y with state := .queued, generation := if y.state = .sent then (y.generation + 1) % 16 else y.generation,
                 member := pos, article := art, nominal := (p.article art).nominal, lane := (p.article art).homeLane,
                 sentCount := 0, answer := .stopped })).joinTail (p.article art).homeLane r).weigh (p.call r).bay
          ((p.call r).count * (p.article art).nominal) 0) := by
  rw [← search_lowered r] at hf
  simp only [Part.moveOn, ho, hl, lowered_eq, hf]
  rfl

theorem moveOn_exhausted
    (hf : p.search (p.call r).bay x.article (p.call r).count ((p.lowered r).build (p.call r).bay).committed o.ceiling
      (max ((p.call r).member + 1) x.member) = none) :
    p.moveOn off r =
      ((((p.lowered r).modLine (p.call r).bay (p.call r).line (fun x => { x with member := 8 })).modCall r
        (fun x => { x with count := 0 })).short off (p.call r).bay (p.call r).line (p.call r).count .outstanding
          .noSubstitute 0).freeAndOffer off r := by
  rw [← search_lowered r] at hf
  simp only [Part.moveOn, ho, hl, lowered_eq, hf]

end MoveOn

theorem committed_lowered (r : Nat) (p : Part) : ((p.lowered r).build (p.call r).bay).committed =
    (p.build (p.call r).bay).committed - (p.call r).count * (p.call r).nominal := by
  simp [Part.lowered, Part.weigh, Part.leaveLane]

/-- Settles O36: by the positions that pass, and by what the record's search finds. -/
theorem substitutesMoveOnToTheNextMember : Obligations.SubstitutesMoveOnToTheNextMember := by
  refine ⟨fun p b own k W C start => ?search, fun p r o x => ?moves⟩
  case search =>
    intro resolves passes
    have pass : ∀ pos art, p.memberArticle own pos = some art ∧ p.memberPasses b k W C art = true ↔ passes pos art :=
      fun pos art => and_congr memberArticle_iff memberPasses_iff
    simp only [search_eq_some, search_eq_none, pass, implies_true, and_self]
  case moves =>
    intro c t ho hl hg hk lowered found
    refine ⟨fun pos art hf => ?_, fun hf => ?_⟩
    · refine Part.Same.of_eq (moveOn_found (x := x) ho hl ?_)
      rw [committed_lowered]
      exact hf
    · refine ⟨_, ?_, moveOn_exhausted (x := x) ho hl (by rw [committed_lowered]; exact hf)⟩
      rw [modCall_modLine]
      exact goesShort_modLine (g := fun x => { x with member := 8 }) (fun _ => rfl)
        (short_goesShort _ _ _ _ .outstanding .noSubstitute _ _ hk)

/-! ### A lane's queue, resolved (R128, R135) -/

theorem queuedOn_iff : p.queuedOn l r = true ↔ r ∈ (p.lane l).queue ∧ (p.call r).state = .queued := by
  simp [Part.queuedOn]

theorem resolveOne_gone {empty : Bool} (h : r ∉ (p.lane l).queue ∨ (p.call r).state ≠ .queued) :
    p.resolveOne off empty l r = p := by
  rw [Part.resolveOne, if_neg (by rw [queuedOn_iff]; tauto)]

section Queued

variable {empty : Bool} (h : r ∈ (p.lane l).queue) (hs : (p.call r).state = .queued)
include h hs

theorem resolveOne_home (hm : (p.call r).mode = .home) :
    p.resolveOne off empty l r = p.goShort off r (if empty then .laneEmpty else .laneOffline) l := by
  rw [Part.resolveOne, if_pos (queuedOn_iff.mpr ⟨h, hs⟩), hm]

theorem resolveOne_substitute (hm : (p.call r).mode = .substitute) :
    p.resolveOne off empty l r = p.moveOn off r := by
  rw [Part.resolveOne, if_pos (queuedOn_iff.mpr ⟨h, hs⟩), hm]

theorem resolveOne_persist (hm : (p.call r).mode = .persist) :
    p.resolveOne off empty l r = if empty then p.defer r else p := by
  rw [Part.resolveOne, if_pos (queuedOn_iff.mpr ⟨h, hs⟩), hm]

end Queued

theorem setStockOut_empty {who : Notice} (h : (p.lane l).stockOut = true) : p.setStockOut off l who = p := if_pos h

theorem setStockOut_stocked {who : Notice} (h : (p.lane l).stockOut = false) : p.setStockOut off l who =
    ((p.modLane l (fun x => { x with stockOut := true })).resolveQueue off true l).raise off
      { who with kind := .laneEmpty, lane := l } := by
  rw [Part.setStockOut, if_neg (by simp [h])]

/-- Settles O38: by the record's mode, record after record of the queue. -/
theorem emptyAndOfflineLanesResolveTheirQueues : Obligations.EmptyAndOfflineLanesResolveTheirQueues := by
  intro off p l
  refine ⟨fun empty r => ⟨resolveOne_gone, fun hq hs => ⟨fun hm => ?_, resolveOne_substitute hq hs, fun hm he => ?_,
    fun hm he => ?_⟩⟩, fun empty => ⟨fun hq => ?_, fun before r hq => ?_⟩, fun who => ⟨setStockOut_empty,
    setStockOut_stocked⟩⟩
  · rw [resolveOne_home hq hs hm]
    exact goShort_endsShort _ _ _ _ _ (by cases empty <;> rfl)
  · rw [resolveOne_persist hq hs hm, if_pos he]
    exact Part.Same.refl _
  · rw [resolveOne_persist hq hs hm, he]
    rfl
  · rw [Part.resolveQueue, hq, List.foldl_nil]
  · rw [Part.resolveQueue, hq, List.foldl_append, List.foldl_cons, List.foldl_nil]

/-! ### The offers of a freed record (R125) -/

/-- The line of a bay's build that a freed record is offered to: the lowest one with uncalled units (R125). -/
def Part.waitingLine (p : Part) (b : Nat) : Option (Nat × Nat × Order) :=
  if (p.build b).state = .gathering then
    (p.orderAt b).bind (fun o => (o.lines.find? (fun kv => decide (0 < kv.2.uncalled))).map (fun kv => (b, kv.1, o)))
  else none

theorem neediest_eq (p : Part) : p.neediest =
    (best (fun x y => moreUrgent x.2.2 y.2.2) (Config.bays.filterMap p.waitingLine)).map (fun x => (x.1, x.2.1)) := rfl

theorem waitingLine_eq_some {e : Nat × Nat × Order} : p.waitingLine b = some e ↔
    e.1 = b ∧ (p.build b).state = .gathering ∧ p.orderAt b = some e.2.2 ∧
      ∃ l, e.2.2.lines.find? (fun kv => decide (0 < kv.2.uncalled)) = some (e.2.1, l) := by
  obtain ⟨b', i, o⟩ := e
  unfold Part.waitingLine
  split
  · next h =>
    simp only [Option.bind_eq_some_iff, Option.map_eq_some_iff, Prod.exists, Prod.mk.injEq, h, true_and]
    constructor
    · rintro ⟨o', ho, i', l, hf, rfl, rfl, rfl⟩
      exact ⟨rfl, ho, l, hf⟩
    · rintro ⟨rfl, ho, l, hf⟩
      exact ⟨o, ho, i, l, hf, rfl, rfl, rfl⟩
  · next h => simp [h]

/-- The first accepted entry of a store with rising keys has the lowest accepted key. -/
theorem Map.first_of_rising {α : Type} {m : Map α} {q : Nat × α → Bool} {k : Nat} {v : α} (hr : Map.rising m = true)
    (h : m.find? q = some (k, v)) :
    Map.find? m k = some v ∧ q (k, v) = true ∧ ∀ j w, Map.find? m j = some w → q (j, w) = true → k ≤ j := by
  obtain ⟨hq, front, back, rfl, hfront⟩ := List.find?_eq_some_iff_append.mp h
  refine ⟨Map.find?_of_mem hr (by simp), hq, fun j w hj hw => ?_⟩
  have later := (List.pairwise_append.mp (Map.pairwise_of_rising hr)).2.1
  rcases List.mem_append.mp (Map.mem_of_find? hj) with hm | hm
  · simpa [hw] using hfront _ hm
  · rcases List.mem_cons.mp hm with he | hm
    · exact (Prod.mk.inj he).1.ge
    · exact ((List.pairwise_cons.mp later).1 _ hm).le

theorem lineWaits_of_waitingLine {o : Order} (hb : b ∈ Config.bays)
    (hr : ∀ b o, p.orderAt b = some o → Map.rising o.lines = true) {b' : Nat} (h : p.waitingLine b = some (b', i, o)) :
    b' = b ∧ p.lineWaits b i o := by
  obtain ⟨rfl, hg, ho, x, hx⟩ := waitingLine_eq_some.mp h
  obtain ⟨hf, hu, -⟩ := Map.first_of_rising (hr _ _ ho) hx
  have hb' := List.mem_range'_1.mp hb
  exact ⟨rfl, hb'.1, by omega, hg, ho, x, hf, of_decide_eq_true hu⟩

theorem waitingLine_of_lineWaits {o : Order} (hr : Map.rising o.lines = true) (h : p.lineWaits b i o)
    (hmin : ∀ j, p.lineWaits b j o → i ≤ j) : p.waitingLine b = some (b, i, o) := by
  obtain ⟨h₁, h₂, hg, ho, x, hx, hu⟩ := h
  cases hf : o.lines.find? (fun kv => decide (0 < kv.2.uncalled)) with
  | none => exact absurd (List.find?_eq_none.mp hf (i, x) (Map.mem_of_find? hx)) (by simp [hu])
  | some e =>
    obtain ⟨j, y⟩ := e
    obtain ⟨hj, hy, hle⟩ := Map.first_of_rising hr hf
    have hji : j ≤ i := hle i x hx (by simpa using hu)
    have hij : i ≤ j := hmin j ⟨h₁, h₂, hg, ho, y, hj, of_decide_eq_true hy⟩
    obtain rfl : i = j := le_antisymm hij hji
    exact waitingLine_eq_some.mpr ⟨rfl, hg, ho, y, hf⟩

/-- Where no line waits, an offer is the request of a line without uncalled units: it changes nothing. -/
theorem request_neediest_idle (h : ∀ b i o, ¬ p.lineWaits b i o) (hn : p.neediest = some (b, i)) :
    p.request off b i = p := by
  rw [neediest_eq, Option.map_eq_some_iff] at hn
  obtain ⟨⟨b', i', o⟩, hbest, he⟩ := hn
  obtain ⟨rfl, rfl⟩ := Prod.mk.inj he
  have hmem : (b', i', o) ∈ Config.bays.filterMap p.waitingLine := by
    obtain ⟨front, back, hsplit, -⟩ := best_least (fun e : Nat × Nat × Order => e.2.2.urgencyKey)
      (fun x _ y _ => moreUrgent_iff_urgencyKey_lt x.2.2 y.2.2) hbest
    exact hsplit ▸ by simp
  obtain ⟨a, ha, hw⟩ := List.mem_filterMap.mp hmem
  obtain ⟨rfl, hg, ho, -⟩ := waitingLine_eq_some.mp hw
  cases hl : Map.find? o.lines i' with
  | none => simp only [Part.request, ho, hl]
  | some x =>
    refine request_idle ho hl (.inl (Nat.eq_zero_of_not_pos fun hu => ?_))
    have ha' := List.mem_range'_1.mp ha
    exact h b' i' o ⟨ha'.1, Nat.lt_succ_iff.mp ha'.2, hg, ho, x, hl, hu⟩

theorem offerUpTo_noneWaits (h : ∀ b i o, ¬ p.lineWaits b i o) (n : Nat) : p.offerUpTo off n r = p := by
  induction n with
  | zero => rfl
  | succ n ih =>
    rw [Part.offerUpTo]
    split
    · rfl
    · split
      · rfl
      · next b i hn => rw [request_neediest_idle h hn, ih]

/-- The choice from a list whose numbers rise: the least key, the lower number where the keys are equal. -/
theorem best_of_rising {γ κ : Type} [LinearOrder κ] {l : List (Nat × γ)} {better : Nat × γ → Nat × γ → Bool}
    (key : Nat × γ → κ) (hbetter : ∀ x ∈ l, ∀ y ∈ l, (better x y = true ↔ key x < key y))
    (rising : l.Pairwise (fun x y => x.1 < y.1)) {e : Nat × γ} (he : e ∈ l)
    (hmin : ∀ m ∈ l, key e ≤ key m ∧ (key m ≤ key e → e.1 ≤ m.1)) : best better l = some e := by
  cases hbest : best better l with
  | none =>
    rw [best_eq_none_iff] at hbest
    simp [hbest] at he
  | some m =>
    obtain ⟨front, back, rfl, hle, hlt⟩ := best_least key hbetter hbest
    obtain ⟨hem, hnumber⟩ := hmin m (by simp)
    have hnumber := hnumber (hle e he)
    rw [List.pairwise_append, List.pairwise_cons] at rising
    rcases List.mem_append.mp he with hfront | hback
    · exact absurd (hlt e hfront) (not_lt.mpr hem)
    · rcases List.mem_cons.mp hback with rfl | hback
      · rfl
      · exact absurd (rising.2.1.1 e hback) (not_lt.mpr hnumber)

/-- The choice among what the bays put forward: the least key, the lower bay where the keys are equal. -/
theorem best_of_bays {γ κ : Type} [LinearOrder κ] {g : Nat → Option (Nat × γ)} {better : Nat × γ → Nat × γ → Bool}
    (key : γ → κ) (hbetter : ∀ x y, better x y = true ↔ key x.2 < key y.2) (hg : ∀ b e, g b = some e → e.1 = b)
    {e : Nat × γ} (he : e ∈ Config.bays.filterMap g)
    (hmin : ∀ m ∈ Config.bays.filterMap g, key e.2 ≤ key m.2 ∧ (key m.2 ≤ key e.2 → e.1 ≤ m.1)) :
    best better (Config.bays.filterMap g) = some e := by
  refine best_of_rising (fun x => key x.2) (fun x _ y _ => hbetter x y) ?_ he hmin
  refine List.pairwise_filterMap.mpr ((List.pairwise_lt_range' 1).imp fun {a a'} hlt e he e' he' => ?_)
  rw [hg a e he, hg a' e' he']
  exact hlt

theorem moreUrgent_eq_false_iff {o o' : Order} : moreUrgent o o' = false ↔ o'.urgencyKey ≤ o.urgencyKey := by
  rw [← Bool.not_eq_true, moreUrgent_iff_urgencyKey_lt, not_lt]

/-- The line most in need is the lowest waiting one of the most urgent build, the lower bay where the key leaves two
equal (R125). -/
theorem neediest_of_lineWaits {o : Order} (hw : p.lineWaits b i o)
    (hr : ∀ b o, p.orderAt b = some o → Map.rising o.lines = true)
    (hmin : ∀ b' i' o', p.lineWaits b' i' o' → moreUrgent o' o = false ∧ (moreUrgent o o' = false → b ≤ b') ∧
      (b' = b → i ≤ i')) : p.neediest = some (b, i) := by
  have hmem : (b, i, o) ∈ Config.bays.filterMap p.waitingLine := by
    obtain ⟨h₁, h₂, -, ho, -⟩ := id hw
    exact List.mem_filterMap.mpr ⟨b, List.mem_range'_1.mpr ⟨h₁, Nat.lt_succ_iff.mpr h₂⟩,
      waitingLine_of_lineWaits (hr b o ho) hw fun j hj => (hmin b j o hj).2.2 rfl⟩
  have least : ∀ m ∈ Config.bays.filterMap p.waitingLine, o.urgencyKey ≤ m.2.2.urgencyKey ∧
      (m.2.2.urgencyKey ≤ o.urgencyKey → b ≤ m.1) := fun m hm => by
    obtain ⟨a, ha, hline⟩ := List.mem_filterMap.mp hm
    obtain ⟨rfl, hwaits⟩ := lineWaits_of_waitingLine ha hr hline
    obtain ⟨hle, hbay, -⟩ := hmin _ _ _ hwaits
    rw [moreUrgent_eq_false_iff] at hle hbay
    exact ⟨hle, hbay⟩
  rw [neediest_eq, best_of_bays (fun x : Nat × Order => x.2.urgencyKey)
    (fun x y => moreUrgent_iff_urgencyKey_lt x.2.2 y.2.2) (fun b e he => (waitingLine_eq_some.mp he).1) hmem least]
  rfl

theorem offerUpTo_taken (h : (p.call r).state ≠ .free) (n : Nat) : p.offerUpTo off n r = p := by
  cases n with
  | zero => rfl
  | succ n => rw [Part.offerUpTo, if_pos h]

/-- As many offers as the relation counts lead where the relation does, and so do more. -/
theorem offerUpTo_offers {n m : Nat} {t : Part} (h : Part.Offers r n p t) (hm : n ≤ m) :
    p.offerUpTo takeLaneOut m r = t := by
  induction h generalizing m with
  | taken n p ht => exact offerUpTo_taken ht m
  | noneWaits n p hw => exact offerUpTo_noneWaits hw m
  | offered n p t b i o hf hw hr hmin _ ih =>
    obtain ⟨m, rfl⟩ : ∃ k, m = k + 1 := ⟨m - 1, by omega⟩
    rw [Part.offerUpTo, if_neg (by simp [hf]), neediest_of_lineWaits hw hr hmin]
    exact ih (by omega)

/-- Settles O37: a freed record is as R116 leaves it, and its offers follow the line most in need. -/
theorem freedRecordsGoToTheNeediestLine : Obligations.FreedRecordsGoToTheNeediestLine :=
  ⟨fun p r => ⟨p.freeCall r, Part.Same.refl _, rfl⟩, fun _ _ _ _ hn h => offerUpTo_offers h hn⟩

end Sys2Proof.Machine

namespace Sys2Proof.Machine

variable {p : Part} {r : Nat} {off : LaneAction} {pkt : Packet}

/-! ### The carriers of an Answer (R129) -/

theorem loose_iff {c : Nat} {x : Carrier} : (carrierId c && x.loose) = true ↔
    1 ≤ c ∧ c ≤ 4095 ∧ (x.state = .free ∨ x.state = .surplus ∨ x.state = .reject) := by
  have loose : x.loose = true ↔ x.state = .free ∨ x.state = .surplus ∨ x.state = .reject := by
    unfold Carrier.loose
    cases x.state <;> simp
  rw [Bool.and_eq_true, carrierId_iff, loose, and_assoc]

theorem creditCarrier_eq (r : Nat) (p : Part) (c : Nat) : p.creditCarrier r c =
    if 1 ≤ c ∧ c ≤ 4095 ∧
        ((p.carrier c).state = .free ∨ (p.carrier c).state = .surplus ∨ (p.carrier c).state = .reject) then
      ((p.setCarrier c { state := .enRoute (p.call r).bay (p.call r).line, article := (p.call r).article }).modCall r
        (fun y => { y with count := y.count - 1 })).modLine (p.call r).bay (p.call r).line (fun l =>
          { l with outstanding := l.outstanding - 1, enRoute := l.enRoute + 1 })
    else p.count .conflicts :=
  if_congr loose_iff rfl rfl

theorem nameSurplus_eq (article : Nat) (p : Part) (c : Nat) : p.nameSurplus article c =
    if 1 ≤ c ∧ c ≤ 4095 ∧
        ((p.carrier c).state = .free ∨ (p.carrier c).state = .surplus ∨ (p.carrier c).state = .reject) then
      p.setCarrier c { p.carrier c with
        state := .surplus, article := article,
        net := if (p.carrier c).state = .surplus ∧ article ≠ 0 ∧
            Config.surplusKeepsNet c (p.carrier c).article article then (p.carrier c).net
          else none }
    else p.count .conflicts :=
  if_congr loose_iff rfl rfl

/-! ### The stock flag and the outcome (R127, R128) -/

theorem stockEmpty_iff : stockEmpty pkt = true ↔ pkt.u8 9 = 2 := by simp [stockEmpty]

theorem outcomePlaced_iff : outcomePlaced pkt = true ↔ pkt.u8 8 = 1 := by simp [outcomePlaced]

theorem applyStock_empty {l : Nat} {who : Notice} (h : pkt.u8 9 = 2) :
    p.applyStock off l (stockEmpty pkt) who = p.setStockOut off l who := if_pos (stockEmpty_iff.mpr h)

theorem applyStock_more {l : Nat} {who : Notice} (h : pkt.u8 9 = 1) :
    p.applyStock off l (stockEmpty pkt) who = p.clearStockOut l := if_neg (by rw [stockEmpty_iff]; omega)

/-! ### The class of an Answer (R127) -/

theorem exec_answer_eq {s : State} {q : Part} (h : s.part.receives pkt) (hm : s.part.mode ≠ .config)
    (hc : answerChecks pkt = true) (hq : (s.part.takeOn .answer pkt).takeAnswer takeLaneOut pkt = q) :
    exec (.answer pkt) s = .next { s with part := q } := hq ▸ exec_answer_taken h hm hc

theorem takeAnswer_current (hg : (p.call (tagIndex (pkt.u16 6))).generation = tagHigh (pkt.u16 6))
    (hs : (p.call (tagIndex (pkt.u16 6))).state = .sent) :
    p.takeAnswer off pkt = p.currentAnswer off (tagIndex (pkt.u16 6)) pkt := by
  simp only [Part.takeAnswer, hg, if_true, hs]

theorem takeAnswer_orphan (hg : (p.call (tagIndex (pkt.u16 6))).generation = tagHigh (pkt.u16 6))
    (hs : (p.call (tagIndex (pkt.u16 6))).state = .orphan) :
    p.takeAnswer off pkt = p.orphanAnswer off (tagIndex (pkt.u16 6)) pkt := by
  simp only [Part.takeAnswer, hg, if_true, hs]

theorem takeAnswer_stale (h : (p.call (tagIndex (pkt.u16 6))).generation ≠ tagHigh (pkt.u16 6) ∨
    ((p.call (tagIndex (pkt.u16 6))).state ≠ .sent ∧ (p.call (tagIndex (pkt.u16 6))).state ≠ .orphan)) :
    p.takeAnswer off pkt = p.staleAnswer off (tagIndex (pkt.u16 6)) pkt := by
  simp only [Part.takeAnswer]
  split
  · next hg =>
    obtain ⟨hs, ho⟩ := h.resolve_left (not_not_intro hg)
    split
    · exact absurd ‹_› hs
    · exact absurd ‹_› ho
    · rfl
  · rfl

/-! ### A current Answer (R127 to R131) -/

/-- The answer timer of the record stops, and its lane ceases to be busy with it (R127). -/
def Part.answerHeard (r : Nat) (p : Part) : Part :=
  (p.leaveLane (p.call r).lane r).modCall r (fun x => { x with answer := .stopped })

/-- The stock flag of a current Answer is applied to the record's lane (R128). -/
def Part.answerStock (off : LaneAction) (r : Nat) (pkt : Packet) (p : Part) : Part :=
  (p.answerHeard r).applyStock off (p.call r).lane (stockEmpty pkt) (p.whoOf (p.call r))

/-- PLACED sets the miss count of the record's lane to 0 (R127). -/
def Part.missesCleared (l : Nat) (pkt : Packet) (p : Part) : Part :=
  if outcomePlaced pkt then p.modLane l (fun x => { x with misses := 0 }) else p

/-- The carriers of an Answer, up to the count sent credited, the others SURPLUS (R129). -/
def Part.carriersTaken (r : Nat) (c : Call) (pkt : Packet) (p : Part) : Part :=
  ((answerIds pkt).drop c.sentCount).foldl (fun q id => q.nameSurplus c.article id)
    (((answerIds pkt).take c.sentCount).foldl (fun q id => q.creditCarrier r id) p)

/-- What a current Answer makes of the part before its record is disposed of (R127 to R129). -/
def Part.answerApplied (off : LaneAction) (r : Nat) (pkt : Packet) (p : Part) : Part :=
  ((p.answerStock off r pkt).missesCleared (p.call r).lane pkt).carriersTaken r (p.call r) pkt

theorem currentAnswer_placed (h : pkt.u8 8 = 1) : p.currentAnswer off r pkt =
    (p.answerApplied off r pkt).dispose off r (outcomePlaced pkt) (stockEmpty pkt) :=
  if_pos (outcomePlaced_iff.mpr h)

theorem currentAnswer_fault (h : ¬ pkt.u8 8 = 1) : p.currentAnswer off r pkt =
    ((p.answerApplied off r pkt).dispose off r (outcomePlaced pkt) (stockEmpty pkt)).miss off (p.call r).lane
      (p.whoOf (p.call r)) :=
  if_neg (outcomePlaced_iff.not.mpr h)

section Dispose

variable {placed stockOut : Bool}

theorem dispose_spent (h : (p.call r).count = 0) :
    p.dispose off r placed stockOut = p.freeAndOffer off r := if_pos h

variable (h : 0 < (p.call r).count)
include h

theorem dispose_expired (he : (p.call r).expire = true) :
    p.dispose off r placed stockOut = p.goShort off r .persistTimeout (p.call r).lane := by
  simp [Part.dispose, h.ne', he]

variable (he : (p.call r).expire = false)
include he

theorem dispose_returns (hp : placed = false ∨ stockOut = false) :
    p.dispose off r placed stockOut = p.returnToQueue off r := by
  rcases hp with rfl | rfl
  · simp [Part.dispose, h.ne', he]
  · simp [Part.dispose, h.ne', he]

theorem dispose_home (hm : (p.call r).mode = .home) :
    p.dispose off r true true = p.goShort off r .laneEmpty (p.call r).lane := by
  simp [Part.dispose, h.ne', he, hm]

theorem dispose_persist (hm : (p.call r).mode = .persist) :
    p.dispose off r true true = p.returnToQueue off r := by
  simp [Part.dispose, h.ne', he, hm]

theorem dispose_substitute (hm : (p.call r).mode = .substitute) :
    p.dispose off r true true = p.moveOn off r := by
  simp [Part.dispose, h.ne', he, hm]

end Dispose

/-- What becomes of the record of a current Answer, by the first case that applies (R130). -/
def Part.disposed (r : Nat) (pkt : Packet) (x z : Part) : Prop :=
  ((x.call r).count = 0 → z = x.freeAndOffer takeLaneOut r) ∧
  (0 < (x.call r).count → (x.call r).expire = true → x.endsShort takeLaneOut r .persistTimeout (x.call r).lane z) ∧
  (0 < (x.call r).count → (x.call r).expire = false → (¬ pkt.u8 8 = 1 ∨ pkt.u8 9 = 1) → x.goesBack r z) ∧
  (0 < (x.call r).count → (x.call r).expire = false → pkt.u8 8 = 1 → pkt.u8 9 = 2 →
    ((x.call r).mode = .home → x.endsShort takeLaneOut r .laneEmpty (x.call r).lane z) ∧
    ((x.call r).mode = .persist → x.goesBack r z) ∧
    ((x.call r).mode = .substitute → z = x.moveOn takeLaneOut r))

theorem dispose_disposed (r : Nat) (pkt : Packet) (x : Part) :
    x.disposed r pkt (x.dispose takeLaneOut r (outcomePlaced pkt) (stockEmpty pkt)) := by
  refine ⟨dispose_spent, fun h he => ?_, fun h he hp => ?_, fun h he hp hs => ?_⟩
  · rw [dispose_expired h he]
    exact goShort_endsShort _ _ _ _ _ rfl
  · rw [dispose_returns h he]
    · exact returnToQueue_goesBack r x
    · rw [← Bool.not_eq_true, ← Bool.not_eq_true, outcomePlaced_iff, stockEmpty_iff]
      omega
  · rw [outcomePlaced_iff.mpr hp, stockEmpty_iff.mpr hs]
    refine ⟨fun hm => ?_, fun hm => ?_, dispose_substitute h he⟩
    · rw [dispose_home h he hm]
      exact goShort_endsShort _ _ _ _ _ rfl
    · rw [dispose_persist h he hm]
      exact returnToQueue_goesBack r x

/-- Settles O40: by the parts of R127 to R130 in their order. -/
theorem answersCreditTheirCarriers : Obligations.AnswersCreditTheirCarriers := by
  intro s pkt _ h hm hc r c placed ids order credit surplus disposed hs hg
  have hcredit : (fun q id => Part.creditCarrier r q id) = credit := funext₂ fun q id => creditCarrier_eq r q id
  have hsurplus : (fun q id => Part.nameSurplus c.article q id) = surplus :=
    funext₂ fun q id => nameSurplus_eq c.article q id
  have run := exec_answer_eq h hm hc (takeAnswer_current (off := takeLaneOut) hg hs)
  let base := s.part.takeOn .answer pkt
  refine ⟨base.answerHeard r, base.answerStock takeLaneOut r pkt,
    (base.answerStock takeLaneOut r pkt).missesCleared c.lane pkt, base.answerApplied takeLaneOut r pkt,
    base.currentAnswer takeLaneOut r pkt, run, Part.Same.refl _, applyStock_empty, applyStock_more,
    fun hp => if_pos (outcomePlaced_iff.mpr hp), fun hp => if_neg (outcomePlaced_iff.not.mpr hp), ?_,
    fun hp => ?_, fun hp => ?_⟩
  · rw [← hcredit, ← hsurplus]
    rfl
  · rw [currentAnswer_placed hp]
    exact dispose_disposed r pkt _
  · rw [currentAnswer_fault hp]
    exact ⟨_, dispose_disposed r pkt _, miss_takesMiss _ _ _ _ _ _ _⟩

/-! ### Stale and orphan Answers (R132, R133) -/

theorem staleAnswer_attributed (hl : (p.call r).lastLane ≠ 0)
    (hn : (p.laneDir (p.call r).lastLane).node = pkt.src.toNat) : p.staleAnswer off r pkt =
      ((answerIds pkt).foldl (Part.nameSurplus 0)
        (p.applyStock off (p.call r).lastLane (stockEmpty pkt) { kind := .laneEmpty })).count .lateAnswers := by
  simp only [Part.staleAnswer, if_pos (And.intro hl hn)]

theorem staleAnswer_unattributed
    (h : (p.call r).lastLane = 0 ∨ (p.laneDir (p.call r).lastLane).node ≠ pkt.src.toNat) :
    p.staleAnswer off r pkt = ((answerIds pkt).foldl (Part.nameSurplus 0) p).count .lateAnswers := by
  have hn : ¬ ((p.call r).lastLane ≠ 0 ∧ (p.laneDir (p.call r).lastLane).node = pkt.src.toNat) := by tauto
  simp only [Part.staleAnswer, if_neg hn]

theorem orphanAnswer_eq (off : LaneAction) (r : Nat) (pkt : Packet) (p : Part) : p.orphanAnswer off r pkt =
    (((answerIds pkt).foldl (Part.nameSurplus (p.call r).article) (p.applyStock off (p.call r).lane (stockEmpty pkt)
      { kind := .laneEmpty, bay := (p.call r).bay, article := (p.call r).article })).count .lateAnswers).endOrphan
        off r := rfl

/-- Settles O41: by the class of the Answer. -/
theorem staleAnswersMakeSurplus : Obligations.StaleAnswersMakeSurplus := by
  intro s pkt _ h hm hc r c base ids applied named
  have hnamed : ∀ article, Part.nameSurplus article = named article := fun article =>
    funext₂ fun q id => nameSurplus_eq article q id
  refine ⟨fun hstale => ?stale, fun hg hs => ?orphan⟩
  case stale =>
    have run := exec_answer_eq h hm hc (takeAnswer_stale hstale)
    by_cases hl : c.lastLane ≠ 0 ∧ (s.part.laneDir c.lastLane).node = pkt.src.toNat
    · refine ⟨_, fun _ _ => ⟨applyStock_empty, applyStock_more⟩, fun hn => ?_, ?_⟩
      · exact absurd hl (by tauto)
      · rw [staleAnswer_attributed (by exact hl.1) (by exact hl.2), hnamed] at run
        exact run
    · have hn : c.lastLane = 0 ∨ (s.part.laneDir c.lastLane).node ≠ pkt.src.toNat := by tauto
      refine ⟨base, fun h₁ h₂ => absurd ⟨h₁, h₂⟩ hl, fun _ => rfl, ?_⟩
      rw [staleAnswer_unattributed (by exact hn), hnamed] at run
      exact run
  case orphan =>
    have run := exec_answer_eq h hm hc (takeAnswer_orphan hg hs)
    rw [orphanAnswer_eq, hnamed] at run
    exact ⟨_, _, _, _, run, ⟨applyStock_empty, applyStock_more⟩, rfl, Part.Same.refl _, rfl⟩

end Sys2Proof.Machine

namespace Sys2Proof.Machine

variable {p : Part} {b r : Nat} {off : LaneAction}

/-! ### Units of many lines back to uncalled (R90) -/

/-- A unit goes back from held to uncalled (R77). -/
def Line.unheld (l : Line) : Line := { l with held := l.held - 1, uncalled := l.uncalled + 1 }

/-- For every index of a list a unit of that line goes back from held to uncalled. -/
def Order.unheldLines (is : List Nat) (o : Order) : Order := is.foldl (fun o i => o.withLine i Line.unheld) o

/-- Only the lines of the order are not as they were. -/
def OnlyLines (o o' : Order) : Prop := o' = { o with lines := o'.lines }

theorem OnlyLines.trans {o o' o'' : Order} (h : OnlyLines o o') (h' : OnlyLines o' o'') : OnlyLines o o'' := by
  unfold OnlyLines at *
  rw [h', h]

theorem onlyLines_withLine (i : Nat) (f : Line → Line) (o : Order) : OnlyLines o (o.withLine i f) := by
  unfold OnlyLines Order.withLine
  split <;> rfl

theorem find?_withLine_ne {i j : Nat} (h : j ≠ i) (f : Line → Line) (o : Order) :
    Map.find? (o.withLine i f).lines j = Map.find? o.lines j := by
  unfold Order.withLine
  split
  · rfl
  · exact Map.find?_put_ne _ _ h

theorem onlyLines_unheldLines (is : List Nat) (o : Order) : OnlyLines o (o.unheldLines is) := by
  induction is generalizing o with
  | nil => rfl
  | cons i is ih => exact (onlyLines_withLine i _ o).trans (ih _)

theorem find?_unheldLines (is : List Nat) (o : Order) (j : Nat) :
    Map.find? (o.unheldLines is).lines j = (Map.find? o.lines j).map (fun l =>
      { l with held := l.held - is.count j, uncalled := l.uncalled + is.count j }) := by
  induction is generalizing o with
  | nil => simp [Order.unheldLines]
  | cons i is ih =>
    have e : o.unheldLines (i :: is) = (o.withLine i Line.unheld).unheldLines is := rfl
    rw [e, ih]
    by_cases h : j = i
    · subst h
      rw [find?_withLine, Option.map_map, List.count_cons_self]
      refine congrArg (Option.map · _) (funext fun l => ?_)
      simp only [Function.comp_apply, Line.unheld, Nat.sub_sub, Nat.add_assoc, Nat.add_comm 1]
    · rw [find?_withLine_ne h, List.count_cons_of_ne (Ne.symm h)]

/-! ### The records of a chill expiry (R90) -/

/-- A chilled LINE record not yet marked (R90). -/
def HoldRecord.expires (x : HoldRecord) : Bool := x.isLine && x.chilled && x.mark = .none

/-- The record as a chill expiry leaves it (R90). -/
def HoldRecord.expired (x : HoldRecord) : HoldRecord := { x with mark := .wanted, chillExpired := true }

/-- The records of a list that a chill expiry takes. -/
def Part.expiring (p : Part) (rs : List Nat) : List Nat := rs.filter (fun r => (p.holdRec r).expires)

/-- The lines of those records. -/
def Part.expiringLines (p : Part) (rs : List Nat) : List Nat :=
  (p.expiring rs).map (fun r => (p.holdRec r).role.lineIndex)

theorem expireRecord_kept (h : (p.holdRec r).expires = false) : p.expireRecord b r = p := by
  unfold Part.expireRecord
  simp only
  split
  · next i hi =>
    have hn : ((p.holdRec r).chilled && decide ((p.holdRec r).mark = .none)) = false := by
      simpa [HoldRecord.expires, HoldRecord.isLine, hi] using h
    rw [hn]
    rfl
  · rfl

theorem expireRecord_expires (h : (p.holdRec r).expires = true) : p.expireRecord b r =
    ((p.setRec r (p.holdRec r).expired).modLine b (p.holdRec r).role.lineIndex Line.unheld).modBuild b (fun y =>
      { y with committed := y.committed - (p.holdRec r).weight, chilledHeld := y.chilledHeld - 1 }) := by
  unfold Part.expireRecord
  simp only
  split
  · next i hi =>
    have hc : ((p.holdRec r).chilled && decide ((p.holdRec r).mark = .none)) = true := by
      simpa [HoldRecord.expires, HoldRecord.isLine, hi] using h
    have hl : (p.holdRec r).role.lineIndex = i := by rw [hi]; rfl
    rw [if_pos hc, hl]
    rfl
  · next hf =>
    simp [HoldRecord.expires, HoldRecord.isLine, hf] at h

/-- Only hold records, builds and order records are not as they were. -/
def OnlyHeld (p q : Part) : Prop :=
  q = { p with pool := { p.pool with recs := q.pool.recs }, builds := q.builds,
               book := { p.book with orders := q.book.orders } }

theorem OnlyHeld.trans {p q t : Part} (h : OnlyHeld p q) (h' : OnlyHeld q t) : OnlyHeld p t := by
  unfold OnlyHeld at *
  rw [h', h]

theorem onlyHeld_modOrder (n : Nat) (f : Order → Order) (p : Part) : OnlyHeld p (p.modOrder n f) := by
  unfold OnlyHeld
  conv_lhs => rw [onlyOrders_modOrder n f p]
  simp

theorem onlyHeld_expireRecord (b r : Nat) (p : Part) : OnlyHeld p (p.expireRecord b r) := by
  cases h : (p.holdRec r).expires with
  | false => rw [expireRecord_kept h]; rfl
  | true =>
    rw [expireRecord_expires h]
    exact OnlyHeld.trans (q := p.setRec r (p.holdRec r).expired) rfl
      (OnlyHeld.trans (onlyHeld_modOrder _ _ _) (by rfl))

theorem order_expireRecord (b r : Nat) (p : Part) (a : Nat) :
    ((p.expireRecord b r).build a).order = (p.build a).order := by
  cases h : (p.holdRec r).expires with
  | false => rw [expireRecord_kept h]
  | true =>
    rw [expireRecord_expires h, Part.build_modBuild]
    split
    · next hb => subst hb; simp
    · simp

theorem holdRec_expireRecord (b r : Nat) (p : Part) (k : Nat) : (p.expireRecord b r).holdRec k =
    if k = r ∧ (p.holdRec r).expires = true then (p.holdRec k).expired else p.holdRec k := by
  cases h : (p.holdRec r).expires with
  | false => rw [expireRecord_kept h, if_neg (by simp)]
  | true =>
    rw [expireRecord_expires h, Part.holdRec_modBuild, Part.modLine, Part.holdRec_modOrder, Part.holdRec_setRec]
    by_cases hk : k = r
    · subst hk; simp
    · simp [hk]

/-- The records of a list expire one after another (R90). -/
def Part.expireAll (b : Nat) (rs : List Nat) (p : Part) : Part := rs.foldl (fun q r => q.expireRecord b r) p

theorem onlyHeld_expireAll (b : Nat) (rs : List Nat) (p : Part) : OnlyHeld p (p.expireAll b rs) :=
  foldl_rel (R := OnlyHeld) (fun _ => rfl) OnlyHeld.trans (fun q r => onlyHeld_expireRecord b r q) rs p

section ExpireAll

variable {rs : List Nat}

/-- Expiring one record takes none of the others out of the ones that expire. -/
theorem expiring_expireRecord (h : r ∉ rs) : (p.expireRecord b r).expiring rs = p.expiring rs :=
  List.filter_congr fun k hk => by rw [holdRec_expireRecord, if_neg (by rintro ⟨rfl, -⟩; exact h hk)]

theorem expiringLines_expireRecord (h : r ∉ rs) : (p.expireRecord b r).expiringLines rs = p.expiringLines rs := by
  rw [Part.expiringLines, expiring_expireRecord h]
  exact List.map_congr_left fun k hk => by
    rw [holdRec_expireRecord, if_neg (by rintro ⟨rfl, -⟩; exact h (List.mem_filter.mp hk).1)]

theorem expiring_cons (r : Nat) (rs : List Nat) (p : Part) :
    p.expiring (r :: rs) = if (p.holdRec r).expires = true then r :: p.expiring rs else p.expiring rs := by
  rw [Part.expiring, List.filter_cons]
  rfl

theorem holdRec_expireAll (hn : rs.Nodup) (k : Nat) : (p.expireAll b rs).holdRec k =
    if k ∈ p.expiring rs then (p.holdRec k).expired else p.holdRec k := by
  induction rs generalizing p with
  | nil => rfl
  | cons r rs ih =>
    obtain ⟨hr, hn⟩ := List.nodup_cons.mp hn
    have e : p.expireAll b (r :: rs) = (p.expireRecord b r).expireAll b rs := rfl
    have hr' : r ∉ p.expiring rs := fun h => hr (List.mem_filter.mp h).1
    rw [e, ih hn, expiring_expireRecord hr, holdRec_expireRecord, expiring_cons]
    by_cases hk : k = r
    · subst hk
      cases h : (p.holdRec k).expires <;> simp [hr']
    · cases h : (p.holdRec r).expires <;> simp [hk]

theorem build_expireAll (hn : rs.Nodup) (a : Nat) : (p.expireAll b rs).build a =
    if a = b then
      { p.build b with
        committed := (p.build b).committed - ((p.expiring rs).map (fun r => (p.holdRec r).weight)).sum,
        chilledHeld := (p.build b).chilledHeld - (p.expiring rs).length }
    else p.build a := by
  induction rs generalizing p with
  | nil => by_cases h : a = b <;> simp [Part.expireAll, Part.expiring, h]
  | cons r rs ih =>
    obtain ⟨hr, hn⟩ := List.nodup_cons.mp hn
    have e : p.expireAll b (r :: rs) = (p.expireRecord b r).expireAll b rs := rfl
    have weights : (p.expiring rs).map (fun k => ((p.expireRecord b r).holdRec k).weight) =
        (p.expiring rs).map (fun k => (p.holdRec k).weight) := List.map_congr_left fun k hk => by
      rw [holdRec_expireRecord, if_neg (by rintro ⟨rfl, -⟩; exact hr (List.mem_filter.mp hk).1)]
    rw [e, ih hn, expiring_expireRecord hr, weights, expiring_cons]
    cases h : (p.holdRec r).expires with
    | false => rw [expireRecord_kept h]; rfl
    | true =>
      rw [expireRecord_expires h]
      by_cases ha : a = b
      · simp [ha, Nat.sub_sub, Nat.add_comm 1]
      · simp [ha, Part.build_modBuild]

theorem order_q_expireAll (hn : rs.Nodup) (n : Nat) : (p.expireAll b rs).order? n =
    if n = (p.build b).order then (p.order? n).map (Order.unheldLines (p.expiringLines rs)) else p.order? n := by
  induction rs generalizing p with
  | nil => cases h : p.order? n <;> simp [Part.expireAll, Part.expiringLines, Part.expiring, Order.unheldLines, h]
  | cons r rs ih =>
    obtain ⟨hr, hn⟩ := List.nodup_cons.mp hn
    have e : p.expireAll b (r :: rs) = (p.expireRecord b r).expireAll b rs := rfl
    rw [e, ih hn, expiringLines_expireRecord hr, order_expireRecord]
    cases h : (p.holdRec r).expires with
    | false =>
      have lines : p.expiringLines (r :: rs) = p.expiringLines rs := by
        rw [Part.expiringLines, expiring_cons, h]
        rfl
      rw [expireRecord_kept h, lines]
    | true =>
      have lines : p.expiringLines (r :: rs) = (p.holdRec r).role.lineIndex :: p.expiringLines rs := by
        rw [Part.expiringLines, expiring_cons, h]
        rfl
      have order : (p.expireRecord b r).order? n = if n = (p.build b).order then
          (p.order? n).map (Order.withLine (p.holdRec r).role.lineIndex Line.unheld) else p.order? n := by
        rw [expireRecord_expires h, order?_modBuild, modLine_eq, Part.order_q_modOrder]
        by_cases hno : n = (p.build b).order
        · rw [if_pos (by exact hno), if_pos hno, hno]
          rfl
        · rw [if_neg (by exact hno), if_neg hno]
          rfl
      rw [order, lines]
      split
      · exact Option.map_map _ _ _
      · rfl

end ExpireAll

/-! ### The dwell timer's expiry (R90, R91) -/

theorem chilledLines_eq (p : Part) (b : Nat) : p.chilledLines b = p.expiringLines (p.build b).hold := by
  rw [Part.chilledLines, Part.expiringLines, Part.expiring, ← List.filterMap_eq_map, List.filterMap_filter]
  refine List.filterMap_congr fun r _ => ?_
  unfold HoldRecord.expires HoldRecord.isLine
  cases h : (p.holdRec r).role with
  | line i => simp [h, Role.lineIndex]
  | foreign => simp [h]

/-- A line has a unit among the records that expire when the line is one of theirs. -/
theorem count_expiringLines (p : Part) (rs : List Nat) (i : Nat) : (p.expiringLines rs).count i =
    ((p.expiring rs).filter (fun r => (p.holdRec r).role = .line i)).length := by
  rw [Part.expiringLines, List.count, List.countP_map, List.countP_eq_length_filter]
  refine congrArg List.length (List.filter_congr fun r hr => ?_)
  have hl := (List.mem_filter.mp hr).2
  unfold HoldRecord.expires HoldRecord.isLine at hl
  cases h : (p.holdRec r).role with
  | line j => rw [Bool.eq_iff_iff]; simp [h, Role.lineIndex]
  | foreign => simp [h] at hl

/-- What a chill expiry changes before its notice: the timer, the records and the expiry count (R90 steps 1 to 3). -/
def Part.chilled (b : Nat) (p : Part) : Part :=
  ((p.modBuild b (fun x => { x with dwell := .stopped })).expireAll b (p.build b).hold).modBuild b (fun x =>
    { x with chillCount := min 15 (x.chillCount + 1) })

theorem onlyHeld_chilled (b : Nat) (p : Part) : OnlyHeld p (p.chilled b) :=
  OnlyHeld.trans (q := p.modBuild b (fun x => { x with dwell := .stopped })) rfl
    (OnlyHeld.trans (onlyHeld_expireAll _ _ _) rfl)

section Chilled

variable (hn : (p.build b).hold.Nodup)
include hn

theorem holdRec_chilled (k : Nat) : (p.chilled b).holdRec k =
    if k ∈ p.expiring (p.build b).hold then (p.holdRec k).expired else p.holdRec k :=
  (Part.holdRec_modBuild _ _ _ _).trans (holdRec_expireAll hn k)

theorem build_chilled (a : Nat) : (p.chilled b).build a =
    if a = b then
      { p.build b with
        dwell := .stopped, chillCount := min 15 ((p.build b).chillCount + 1),
        committed := (p.build b).committed -
          ((p.expiring (p.build b).hold).map (fun r => (p.holdRec r).weight)).sum,
        chilledHeld := (p.build b).chilledHeld - (p.expiring (p.build b).hold).length }
    else p.build a := by
  have records : (p.modBuild b (fun x => { x with dwell := .stopped })).expiring (p.build b).hold =
    p.expiring (p.build b).hold := rfl
  rw [Part.chilled, Part.build_modBuild, build_expireAll hn, build_expireAll hn, records]
  by_cases h : a = b
  · simp [h]
  · simp [h, Part.build_modBuild]

theorem order_q_chilled (n : Nat) : (p.chilled b).order? n =
    if n = (p.build b).order then (p.order? n).map (Order.unheldLines (p.expiringLines (p.build b).hold))
    else p.order? n := by
  rw [Part.chilled, order?_modBuild, order_q_expireAll hn, Part.build_modBuild_self]
  rfl

end Chilled

/-- The notice of a chill expiry. -/
def chillNotice (b order : Nat) : Notice := { kind := .chillExpiry, bay := b, order := order }

theorem dwellExpires_running (h : (p.build b).dwell ≠ .expired) : p.dwellExpires off b = p := if_neg (by tauto)

theorem dwellExpires_expired (h : (p.build b).dwell = .expired) (hs : (p.build b).state = .gathering) :
    p.dwellExpires off b = p.chillExpires off b := if_pos ⟨h, hs⟩

/-- The part once a chill expiry has been counted and noticed (R90 steps 1 to 4). -/
def Part.chillNoticed (b : Nat) (p : Part) : Part :=
  (p.chilled b).raise takeLaneOut (chillNotice b (p.build b).order)

/-- The chill retry limit and the expiry count decide how a chill expiry goes on (R90, R91). -/
theorem chillExpires_eq (b : Nat) (p : Part) : p.chillExpires takeLaneOut b =
    if (p.chillNoticed b).chillRetryLimit ≤ ((p.chillNoticed b).build b).chillCount then
      ((p.chillNoticed b).abort takeLaneOut b .chillFailure).raise takeLaneOut
        { kind := .buildFailed, bay := b, order := (p.build b).order }
    else
      (((List.range 16).filter (fun i => (p.chilledLines b).contains i)).foldl (fun q i => q.request takeLaneOut b i)
        ((p.chillNoticed b).postReturns b)).completionTest takeLaneOut b := by
  have hold : ((p.modBuild b (fun x => { x with dwell := .stopped })).build b).hold = (p.build b).hold := by
    rw [Part.build_modBuild_self]
  unfold Part.chillExpires
  simp only [hold]
  rfl

section Noticed

variable (hn : (p.build b).hold.Nodup)

theorem chillRetryLimit_chillNoticed : (p.chillNoticed b).chillRetryLimit = p.const 6 := by
  have e : (p.chillNoticed b).tables = (p.chilled b).tables := tables_raise _ _
  rw [Part.chillRetryLimit, Part.const, e, onlyHeld_chilled b p]
  rfl

include hn

theorem chillCount_chillNoticed : ((p.chillNoticed b).build b).chillCount = min 15 ((p.build b).chillCount + 1) := by
  obtain ⟨f, hf⟩ := build_raise takeLaneOut (chillNotice b (p.build b).order) rfl (p.chilled b) b
  rw [show (p.chillNoticed b).build b = _ from hf, build_chilled hn, if_pos rfl]

theorem kept_chillNoticed : ((p.chillNoticed b).build b).state = (p.build b).state ∧
    ((p.chillNoticed b).build b).order = (p.build b).order := by
  obtain ⟨f, hf⟩ := build_raise takeLaneOut (chillNotice b (p.build b).order) rfl (p.chilled b) b
  rw [show (p.chillNoticed b).build b = _ from hf, build_chilled hn, if_pos rfl]
  exact ⟨rfl, rfl⟩

/-- At the retry limit the build fails by chill (R91). -/
theorem chillExpires_fails (hg : (p.build b).state = .gathering)
    (hle : p.const 6 ≤ min 15 ((p.build b).chillCount + 1)) : p.chillExpires takeLaneOut b =
      ((((p.chillNoticed b).modOrder (p.build b).order (fun o => { o with state := .failed })).modBuild b (fun z =>
        { z with state := .draining, order := 0, committed := 0, dwell := .stopped, chilledHeld := 0, pointer := 0,
                 stepTimer := .stopped, waitTimer := .stopped, stopCause := .none, heldStep := none })).handOver
          takeLaneOut b).raise takeLaneOut { kind := .buildFailed, bay := b, order := (p.build b).order } := by
  obtain ⟨hstate, horder⟩ := kept_chillNoticed hn
  have abort := abort_chillFailure b (p.chillNoticed b) (hstate.trans hg)
  rw [horder] at abort
  rw [← chillRetryLimit_chillNoticed (b := b), ← chillCount_chillNoticed hn] at hle
  rw [chillExpires_eq, if_pos hle, abort]

/-- Below the limit the records are returned and calls sought for their lines (R90 steps 5 to 7). -/
theorem chillExpires_goesOn (hlt : min 15 ((p.build b).chillCount + 1) < p.const 6) : p.chillExpires takeLaneOut b =
      (((List.range 16).filter (fun i => decide (0 < (p.expiringLines (p.build b).hold).count i))).foldl
        (fun q i => q.request takeLaneOut b i) ((p.chillNoticed b).postReturns b)).completionTest takeLaneOut b := by
  have lines : (fun i => (p.chilledLines b).contains i) =
      fun i => decide (0 < (p.expiringLines (p.build b).hold).count i) := funext fun i => by
    rw [chilledLines_eq, Bool.eq_iff_iff, List.contains_iff_mem, decide_eq_true_eq, List.count_pos_iff]
  rw [← chillRetryLimit_chillNoticed (b := b), ← chillCount_chillNoticed hn] at hlt
  rw [chillExpires_eq, if_neg (not_le.mpr hlt), lines]

end Noticed

/-- Settles O57: the records of the hold list expire one after another, and the count decides what follows. -/
theorem chillExpiriesReturnTheChilledRecords : Obligations.ChillExpiriesReturnTheChilledRecords := by
  intro s b h y chosen units
  refine ⟨fun hd => exec_expiry (exec_chillExpiry b) h (dwellExpires_running hd), fun hd hg hn => ?_⟩
  have run := exec_expiry (exec_chillExpiry b) h (dwellExpires_expired hd hg)
  have hunits : (fun i => (s.part.expiringLines y.hold).count i) = units :=
    funext (count_expiringLines s.part y.hold)
  refine ⟨_, s.part.chilled b, run, ?_, fun k => ?_, fun a => ?_, fun n hne => ?_, fun o ho => ?_, ?_⟩
  · exact onlyHeld_chilled b s.part
  · exact holdRec_chilled hn k
  · exact build_chilled hn a
  · rw [order_q_chilled hn, if_neg hne]
  · refine ⟨(o.unheldLines (s.part.expiringLines y.hold)).lines, ?_, fun i => ?_⟩
    · rw [order_q_chilled hn, if_pos rfl, ho, Option.map_some, ← onlyLines_unheldLines]
    · rw [find?_unheldLines, ← hunits]
  · intro noticed
    refine ⟨fun hle => ?_, fun hlt => ?_⟩
    · exact chillExpires_fails hn hg hle
    · rw [← hunits]
      exact chillExpires_goesOn hn hlt

end Sys2Proof.Machine

namespace Sys2Proof.Machine

variable {p : Part} {b r : Nat} {off : LaneAction} {pkt : Packet}

/-! ### An abort's own changes (R68, R93) -/

/-- The part once an abort has dealt with its order, its style's use count and its build (R68, R93). -/
def Part.abortedPart (b : Nat) (k : AbortKind) (p : Part) : Part :=
  (if (p.build b).state = .finishing then (p.modOrder (p.build b).order (Order.aborted k)).dropStyle (p.styleAt b)
    else p.modOrder (p.build b).order (Order.aborted k)).modBuild b Build.aborted

theorem abortedPart_same (b : Nat) (k : AbortKind) (p : Part) : (p.abortedPart b k).Same
    (((p.modOrder (p.build b).order (Order.aborted k)).modBuild b Build.aborted).modUseCount (p.styleAt b) (fun n =>
      if (p.build b).state = .finishing ∧ p.styleAt b ≠ 0 then n - 1 else n)) := by
  rw [← modBuild_modUseCount]
  refine Part.Same.modBuild ?_ _ _
  by_cases hf : (p.build b).state = .finishing
  · rw [if_pos hf]
    by_cases hs : p.styleAt b = 0
    · rw [Part.dropStyle, if_pos hs]
      exact (modUseCount_same _ _ (if_neg (by simp [hs]))).symm
    · rw [Part.dropStyle, if_neg hs]
      refine Part.Same.of_eq ?_
      simp only [Part.modUseCount, hf, hs, ne_eq, not_false_eq_true, and_self, if_true]
  · rw [if_neg hf]
    exact (modUseCount_same _ _ (if_neg (by simp [hf]))).symm

/-! ### The work handed over (R94, R142) -/

/-- The call records of a bay in given states are those of the store that read so. -/
theorem callsOf_eq (hr : Map.rising p.calls.recs = true) (states : List CallState) :
    p.callsOf b states =
      (p.calls.recs.map Prod.fst).filter (fun r => decide ((p.call r).bay = b ∧ (p.call r).state ∈ states)) := by
  rw [Part.callsOf, List.filter_map]
  refine congrArg (List.map Prod.fst) (List.filter_congr fun kv hkv => ?_)
  have read : p.call kv.1 = kv.2 := by
    rw [Part.call, Map.get, Map.find?_of_mem hr (v := kv.2) hkv]
    rfl
  simp [read]

/-- The calls of a list become orphans (R142). -/
def Part.orphanAll (rs : List Nat) (p : Part) : Part := rs.foldl (fun q r => q.modCall r Call.orphaned) p

theorem call_orphanAll (rs : List Nat) (p : Part) (k : Nat) :
    (p.orphanAll rs).call k = if k ∈ rs then (p.call k).orphaned else p.call k := by
  induction rs generalizing p with
  | nil => rfl
  | cons r rs ih =>
    have e : p.orphanAll (r :: rs) = (p.modCall r Call.orphaned).orphanAll rs := rfl
    rw [e, ih, Part.call_modCall]
    by_cases hk : k = r
    · subst hk
      by_cases hm : k ∈ rs <;> simp [hm, Call.orphaned]
    · simp [hk]

/-- A hold record that is not marked becomes WANTED (R94). -/
def HoldRecord.want (x : HoldRecord) : HoldRecord := if x.mark = .none then { x with mark := .wanted } else x

theorem HoldRecord.want_want (x : HoldRecord) : x.want.want = x.want := by
  by_cases h : x.mark = .none <;> simp [HoldRecord.want, h]

theorem holdRec_markWanted (r : Nat) (p : Part) (k : Nat) :
    (p.markWanted r).holdRec k = if k = r then (p.holdRec k).want else p.holdRec k := by
  unfold Part.markWanted HoldRecord.want
  by_cases hk : k = r
  · subst hk
    by_cases hm : (p.holdRec k).mark = .none <;> simp [hm]
  · by_cases hm : (p.holdRec r).mark = .none <;> simp [hm, hk, Part.holdRec_setRec]

/-- The hold records of a list that are not marked become WANTED (R94). -/
def Part.wantAll (rs : List Nat) (p : Part) : Part := rs.foldl (fun q r => q.markWanted r) p

theorem holdRec_wantAll (rs : List Nat) (p : Part) (k : Nat) :
    (p.wantAll rs).holdRec k = if k ∈ rs then (p.holdRec k).want else p.holdRec k := by
  induction rs generalizing p with
  | nil => rfl
  | cons r rs ih =>
    have e : p.wantAll (r :: rs) = (p.markWanted r).wantAll rs := rfl
    rw [e, ih, holdRec_markWanted]
    by_cases hk : k = r
    · subst hk
      by_cases hm : k ∈ rs <;> simp [hm, HoldRecord.want_want]
    · simp [hk]

theorem onlyRecs_wantAll (rs : List Nat) (p : Part) : OnlyRecs p (p.wantAll rs) :=
  foldl_rel (R := OnlyRecs) (fun _ => rfl) OnlyRecs.trans
    (fun q r => by unfold Part.markWanted; dsimp only; split <;> rfl) rs p

/-- An aborted bay's calls that are not SENT are freed and offered, one after another (R94). -/
def Part.callsFreed (off : LaneAction) (b : Nat) (p : Part) : Part :=
  (p.callsOf b [.queued, .deferred]).foldl (fun q r =>
    if (q.call r).bay = b ∧ ((q.call r).state = .queued ∨ (q.call r).state = .deferred) then q.freeAndOffer off r
    else q) p

/-- Its SENT calls become orphans and are counted (R142). -/
def Part.callsOrphaned (b : Nat) (p : Part) : Part :=
  (p.orphanAll (p.callsOf b [.sent])).modBuild b (fun x => { x with orphans := (p.callsOf b [.sent]).length })

/-- Its EN_ROUTE carriers become SURPLUS (R94). -/
def Part.carriersAbandoned (b : Nat) (p : Part) : Part :=
  { p with carriers := Map.mapValues (Carrier.abandoned b) p.carriers }

/-- What an aborted bay still had in flight, its calls to be freed apart, is given up (R94, R142). -/
def Part.workGivenUp (b : Nat) (p : Part) : Part :=
  ((p.callsOrphaned b).carriersAbandoned b).wantAll (((p.callsOrphaned b).carriersAbandoned b).build b).hold

theorem handOver_eq (off : LaneAction) (b : Nat) (p : Part) :
    p.handOver off b = (((p.callsFreed off b).workGivenUp b).postReturns b).drainTest off b := rfl

theorem build_orphanAll (rs : List Nat) (p : Part) (a : Nat) : (p.orphanAll rs).build a = p.build a :=
  foldl_rel (R := fun p q => q.build a = p.build a) (fun _ => rfl) (fun h h' => h'.trans h) (fun _ _ => by rfl) rs p

theorem holdRec_orphanAll (rs : List Nat) (p : Part) (k : Nat) : (p.orphanAll rs).holdRec k = p.holdRec k :=
  foldl_rel (R := fun p q => q.holdRec k = p.holdRec k) (fun _ => rfl) (fun h h' => h'.trans h) (fun _ _ => by rfl) rs p

theorem carrier_orphanAll (rs : List Nat) (p : Part) (c : Nat) : (p.orphanAll rs).carrier c = p.carrier c :=
  foldl_rel (R := fun p q => q.carrier c = p.carrier c) (fun _ => rfl) (fun h h' => h'.trans h) (fun _ _ => by rfl) rs p

/-- Giving up the work of a bay leaves the rest as it was. -/
def OnlyGivenUp (p q : Part) : Prop :=
  q = { p with calls := { p.calls with recs := q.calls.recs }, builds := q.builds, carriers := q.carriers,
               pool := { p.pool with recs := q.pool.recs } }

theorem OnlyGivenUp.trans {p q t : Part} (h : OnlyGivenUp p q) (h' : OnlyGivenUp q t) : OnlyGivenUp p t := by
  unfold OnlyGivenUp at *
  rw [h', h]

theorem onlyGivenUp_workGivenUp (b : Nat) (p : Part) : OnlyGivenUp p (p.workGivenUp b) := by
  have orphaned : OnlyGivenUp p (p.orphanAll (p.callsOf b [.sent])) :=
    foldl_rel (R := OnlyGivenUp) (fun _ => rfl) OnlyGivenUp.trans (fun _ _ => by rfl) _ p
  have wanted : ∀ (rs : List Nat) (q : Part), OnlyGivenUp q (q.wantAll rs) := fun rs q =>
    foldl_rel (R := OnlyGivenUp) (fun _ => rfl) OnlyGivenUp.trans
      (fun q r => by unfold Part.markWanted; dsimp only; split <;> rfl) rs q
  exact orphaned.trans (OnlyGivenUp.trans (q := (p.callsOrphaned b).carriersAbandoned b) (by rfl) (wanted _ _))

section WorkGivenUp

theorem mem_callsOf_sent (hr : Map.rising p.calls.recs = true) (hb : 1 ≤ b) :
    r ∈ p.callsOf b [.sent] ↔ (p.call r).bay = b ∧ (p.call r).state = .sent := by
  rw [callsOf_eq hr, List.mem_filter, decide_eq_true_eq, List.mem_singleton]
  refine and_iff_right_of_imp fun h => ?_
  cases hf : Map.find? p.calls.recs r with
  | none =>
    have unlisted : p.call r = {} := by rw [Part.call, Map.get, hf]; rfl
    rw [unlisted] at h
    exact absurd h.1.symm (Nat.one_le_iff_ne_zero.mp hb)
  | some c => exact List.mem_map.mpr ⟨(r, c), Map.mem_of_find? hf, rfl⟩

theorem length_callsOf_sent (b : Nat) (p : Part) : (p.callsOf b [.sent]).length =
    (p.calls.recs.filter (fun kv : Nat × Call => kv.2.bay = b && kv.2.state = .sent)).length := by
  rw [Part.callsOf, List.length_map]
  exact congrArg List.length (List.filter_congr fun kv _ => by simp)

theorem call_workGivenUp (hr : Map.rising p.calls.recs = true) (hb : 1 ≤ b) (k : Nat) :
    (p.workGivenUp b).call k =
      if (p.call k).bay = b ∧ (p.call k).state = .sent then (p.call k).orphaned else p.call k := by
  have e : (p.workGivenUp b).call k = (p.orphanAll (p.callsOf b [.sent])).call k := by
    rw [Part.workGivenUp, onlyRecs_wantAll]
    rfl
  rw [e, call_orphanAll]
  exact if_congr (mem_callsOf_sent hr hb) rfl rfl

theorem build_callsOrphaned (a : Nat) : (p.callsOrphaned b).build a =
    if a = b then { p.build b with orphans := (p.callsOf b [.sent]).length } else p.build a := by
  rw [Part.callsOrphaned, Part.build_modBuild, build_orphanAll, build_orphanAll]

theorem build_workGivenUp (a : Nat) : (p.workGivenUp b).build a =
    if a = b then { p.build b with orphans := (p.callsOf b [.sent]).length } else p.build a := by
  have e : (p.workGivenUp b).build a = (p.callsOrphaned b).build a := by
    rw [Part.workGivenUp, onlyRecs_wantAll]
    rfl
  rw [e, build_callsOrphaned]

theorem carrier_workGivenUp (c : Nat) : (p.workGivenUp b).carrier c = (p.carrier c).abandoned b := by
  have e : (p.workGivenUp b).carrier c = ((p.callsOrphaned b).carriersAbandoned b).carrier c := by
    rw [Part.workGivenUp, onlyRecs_wantAll]
    rfl
  rw [e]
  have orphaned : (p.callsOrphaned b).carrier c = p.carrier c := carrier_orphanAll _ p c
  exact (Map.get_mapValues ({} : Carrier) (Carrier.abandoned b) rfl _ c).trans (congrArg (Carrier.abandoned b) orphaned)

theorem holdRec_workGivenUp (k : Nat) : (p.workGivenUp b).holdRec k =
    if k ∈ (p.build b).hold then (p.holdRec k).want else p.holdRec k := by
  have hold : (((p.callsOrphaned b).carriersAbandoned b).build b).hold = (p.build b).hold := by
    rw [show ((p.callsOrphaned b).carriersAbandoned b).build b = (p.callsOrphaned b).build b from rfl,
      build_callsOrphaned, if_pos rfl]
  have record : ((p.callsOrphaned b).carriersAbandoned b).holdRec k = p.holdRec k := holdRec_orphanAll _ p k
  rw [Part.workGivenUp, holdRec_wantAll, hold, record]

end WorkGivenUp

/-! ### BUILD_ABORT (R92) -/

theorem buildAbort_badIndex (h : bayKnown (pkt.u8 8) = false) : buildAbort off pkt p = refuse .badIndex p := by
  simp [buildAbort, bayNumber, h]

theorem abortable_iff {x : BuildState} : x.abortable = true ↔
    x = .gathering ∨ x = .shortHold ∨ x = .finishing ∨ x = .finishStopped := by
  cases x <;> simp [BuildState.abortable]

section BuildAbort

variable (hb : bayKnown (pkt.u8 8) = true)
include hb

theorem buildAbort_badValue (h : 1 < pkt.u8 9) : buildAbort off pkt p = refuse .badValue p := by
  simp [buildAbort, bayNumber, hb, flagOf_of_gt h]

variable (h : pkt.u8 9 ≤ 1)
include h

theorem buildAbort_badState (hs : ¬ (p.build (pkt.u8 8)).state.abortable = true) :
    buildAbort off pkt p = refuse .badState p := by
  simp [buildAbort, bayNumber, hb, flagOf_of_le h, hs]

theorem buildAbort_ok (hs : (p.build (pkt.u8 8)).state.abortable = true) : buildAbort off pkt p =
    accept (b32 (p.build (pkt.u8 8)).order ++ b8 (abortKind (decide (pkt.u8 9 = 1))).orderState.code)
      (p.abort off (pkt.u8 8) (abortKind (decide (pkt.u8 9 = 1)))) := by
  simp [buildAbort, bayNumber, hb, flagOf_of_le h, hs]

end BuildAbort

/-- The part an abort by request leaves before its work is handed over, as R93 spells it. -/
theorem abortedPart_request (b : Nat) (requeue : Bool) (p : Part) : (p.abortedPart b (abortKind requeue)).Same
    (((p.modOrder (p.build b).order (fun o =>
      if requeue then
        { o with state := .waiting, lines := Map.mapValues (fun l =>
          { l with member := 0, held := 0, enRoute := 0, outstanding := 0, uncalled := l.quantity, short := 0,
                   cause := none }) o.lines }
      else { o with state := .cancelled })).modBuild b (fun z =>
        { z with state := .draining, order := 0, committed := 0, dwell := .stopped, chilledHeld := 0, pointer := 0,
                 stepTimer := .stopped, waitTimer := .stopped, stopCause := .none, heldStep := none })).modUseCount
          (p.styleAt b) (fun n => if (p.build b).state = .finishing ∧ p.styleAt b ≠ 0 then n - 1 else n)) := by
  cases requeue
  · exact abortedPart_same b .cancel p
  · exact abortedPart_same b .requeue p

theorem abort_requeue (off : LaneAction) (b : Nat) (p : Part) : p.abort off b .requeue =
    ((p.abortedPart b .requeue).bindingEvent off (List.range' 1 64)).handOver off b := rfl

theorem abort_cancel (off : LaneAction) (b : Nat) (p : Part) :
    p.abort off b .cancel = (p.abortedPart b .cancel).handOver off b := rfl

/-- The abort that BUILD_ABORT asks for and its reply, by the requeue flag (R92, R93). -/
theorem buildAbort_abort (hb : bayKnown (pkt.u8 8) = true) (h : pkt.u8 9 ≤ 1)
    (hs : (p.build (pkt.u8 8)).state.abortable = true) : buildAbort off pkt p =
      accept (b32 (p.build (pkt.u8 8)).order ++ b8 (if pkt.u8 9 = 1 then 2 else 6))
        ((if pkt.u8 9 = 1 then
          (p.abortedPart (pkt.u8 8) (abortKind (decide (pkt.u8 9 = 1)))).bindingEvent off (List.range' 1 64)
        else p.abortedPart (pkt.u8 8) (abortKind (decide (pkt.u8 9 = 1)))).handOver off (pkt.u8 8)) := by
  rw [buildAbort_ok hb h hs]
  by_cases hq : pkt.u8 9 = 1
  · simp only [hq, decide_true, abortKind, if_true, abort_requeue, AbortKind.orderState, OrderState.code]
  · simp only [hq, decide_false, abortKind, if_false, abort_cancel, AbortKind.orderState, OrderState.code,
      Bool.false_eq_true]

/-- Settles O58: by the checks of the request, and by what the handing over of the work does. -/
theorem abortsHandOverTheWork : Obligations.AbortsHandOverTheWork := by
  unfold Obligations.AbortsHandOverTheWork
  intro aborted abortable
  refine ⟨fun s pkt h => ?abort, fun s pkt o b h ho hb hc => ?cancel, fun p b => ?handOver⟩
  case abort =>
    intro b y runs
    refine ⟨fun hb => ?_, fun h₁ h₂ hv => ?_, fun h₁ h₂ hv hs => ?_, fun h₁ h₂ hv hs => ?_⟩
    · exact exec_request_unchanged (exec_buildAbort pkt) h (buildAbort_badIndex (not_bayKnown_iff.mpr hb))
    · exact exec_request_unchanged (exec_buildAbort pkt) h (buildAbort_badValue (bayKnown_iff.mpr ⟨h₁, h₂⟩) hv)
    · exact exec_request_unchanged (exec_buildAbort pkt) h
        (buildAbort_badState (bayKnown_iff.mpr ⟨h₁, h₂⟩) hv (abortable_iff.not.mpr hs))
    · exact ⟨_, abortedPart_request b _ _, exec_request_answered (exec_buildAbort pkt) h
        (buildAbort_abort (bayKnown_iff.mpr ⟨h₁, h₂⟩) hv (abortable_iff.mpr hs))⟩
  case cancel =>
    exact ⟨_, abortedPart_request b false _, exec_request_answered (exec_orderCancel pkt) h
      ((orderCancel_bound (p := s.part.replied pkt .ok []) ho hb hc).trans
        (congrArg (accept _) (abort_cancel takeLaneOut b _)))⟩
  case handOver =>
    intro waits q hb hr hq
    have freed : p.callsFreed takeLaneOut b = q := by
      rw [Part.callsFreed, callsOf_eq hr]
      refine congrArg (List.foldl _ p) (List.filter_congr fun r _ => ?_)
      simp only [List.mem_cons, List.not_mem_nil, or_false]
      rfl
    refine ⟨q.workGivenUp b, ?_, fun k => ?_, fun a => ?_, fun c => ?_, fun k => ?_, ?_⟩
    · exact onlyGivenUp_workGivenUp b q
    · exact call_workGivenUp hq hb k
    · rw [build_workGivenUp, length_callsOf_sent]
    · rw [carrier_workGivenUp]
      rfl
    · rw [holdRec_workGivenUp, HoldRecord.want, ite_and]
    · rw [handOver_eq, freed]

end Sys2Proof.Machine

namespace Sys2Proof.Machine

variable {p : Part} {b c i r a w : Nat} {off : LaneAction} {g : Sight}

/-! ### The source a line offers (R167) -/

/-- The first image that a search over a store with rising keys finds is that of the lowest key with one. -/
theorem Map.findSome?_of_rising {α β : Type} {m : Map α} {f : Nat × α → Option β} {x : β} (hr : Map.rising m = true)
    (h : m.findSome? f = some x) :
    ∃ k v, Map.find? m k = some v ∧ f (k, v) = some x ∧
      ∀ j u, Map.find? m j = some u → (f (j, u)).isSome = true → k ≤ j := by
  obtain ⟨front, ⟨k, v⟩, back, rfl, hx, hfront⟩ := List.findSome?_eq_some_iff.mp h
  refine ⟨k, v, Map.find?_of_mem hr (by simp), hx, fun j u hj hu => ?_⟩
  have later := (List.pairwise_append.mp (Map.pairwise_of_rising hr)).2.1
  rcases List.mem_append.mp (Map.mem_of_find? hj) with hm | hm
  · rw [hfront _ hm] at hu
    cases hu
  · rcases List.mem_cons.mp hm with he | hm
    · exact (Prod.mk.inj he).1.ge
    · exact ((List.pairwise_cons.mp later).1 _ hm).le

/-- A QUEUED call of a line for an article, with units to give (R167). -/
def Part.claimable (p : Part) (b i a r : Nat) : Prop :=
  (p.call r).state = .queued ∧ (p.call r).bay = b ∧ (p.call r).line = i ∧ (p.call r).article = a ∧
    0 < (p.call r).count

theorem mem_claimable (hr : Map.rising p.calls.recs = true) {kv : Nat × Call} :
    kv ∈ p.calls.recs.filter (fun kv => kv.2.state = .queued && kv.2.bay = b && kv.2.line = i && kv.2.article = a &&
      decide (0 < kv.2.count)) ↔ p.claimable b i a kv.1 ∧ kv.2 = p.call kv.1 := by
  obtain ⟨k, x⟩ := kv
  simp only [List.mem_filter, ← Map.find?_eq_some_iff_mem hr, Bool.and_eq_true, decide_eq_true_eq, and_assoc]
  constructor
  · rintro ⟨hf, h⟩
    have read : x = p.call k := by rw [Part.call, Map.get, hf]; rfl
    subst read
    exact ⟨h, rfl⟩
  · rintro ⟨h, rfl⟩
    refine ⟨?_, h⟩
    cases hf : Map.find? p.calls.recs k with
    | none =>
      have unlisted : p.call k = {} := by rw [Part.call, Map.get, hf]; rfl
      have := h.2.2.2.2
      rw [unlisted] at this
      cases this
    | some x => rw [Part.call, Map.get, hf]; rfl

/-- The call a claim takes a unit of: of the line's QUEUED ones the highest sequence number, the lower record where two
are equal (R167). -/
theorem claimRecord_eq_some_iff (hr : Map.rising p.calls.recs = true) : p.claimRecord b i a = some r ↔
    p.claimable b i a r ∧ ∀ r', p.claimable b i a r' →
      (p.call r').seq.toNat < (p.call r).seq.toNat ∨ ((p.call r').seq = (p.call r).seq ∧ r ≤ r') := by
  have first : ∀ r, p.claimRecord b i a = some r → p.claimable b i a r ∧ ∀ r', p.claimable b i a r' →
      (p.call r').seq.toNat < (p.call r).seq.toNat ∨ ((p.call r').seq = (p.call r).seq ∧ r ≤ r') := by
    rintro r h
    obtain ⟨⟨k, x⟩, hbest, rfl⟩ := Option.map_eq_some_iff.mp h
    obtain ⟨front, back, hsplit, hle, hlt⟩ := best_least (κ := Natᵒᵈ)
      (fun kv : Nat × Call => OrderDual.toDual kv.2.seq.toNat) (fun x _ y _ => by simp) hbest
    obtain ⟨hk, hx⟩ := (mem_claimable hr (kv := (k, x)) (b := b) (i := i) (a := a)).mp (by rw [hsplit]; simp)
    obtain rfl : x = p.call k := hx
    refine ⟨hk, fun r' h' => ?_⟩
    have hmem := (mem_claimable hr (kv := (r', p.call r'))).mpr ⟨h', rfl⟩
    have hseq : (p.call r').seq.toNat ≤ (p.call k).seq.toNat := hle _ hmem
    rcases hseq.lt_or_eq with hlt' | heq
    · exact .inl hlt'
    · refine .inr ⟨BitVec.eq_of_toNat_eq heq, ?_⟩
      have later := List.pairwise_append.mp (hsplit ▸ Map.pairwise_of_rising (Map.rising_filter hr _))
      rw [hsplit, List.mem_append, List.mem_cons] at hmem
      rcases hmem with hfront | he | hback
      · have := OrderDual.toDual_lt_toDual.mp (hlt _ hfront)
        simp at this
        omega
      · exact (Prod.mk.inj he).1.ge
      · exact ((List.pairwise_cons.mp later.2.1).1 _ hback).le
  refine ⟨first r, fun ⟨hr', hmax⟩ => ?_⟩
  cases hc : p.claimRecord b i a with
  | none =>
    rw [Part.claimRecord, Option.map_eq_none_iff, best_eq_none_iff] at hc
    exact absurd ((mem_claimable hr (kv := (r, p.call r))).mpr ⟨hr', rfl⟩) (by rw [hc]; simp)
  | some k =>
    obtain ⟨hk, hmax'⟩ := first k hc
    rcases hmax k hk with h₁ | ⟨h₁, h₁'⟩ <;> rcases hmax' r hr' with h₂ | ⟨h₂, h₂'⟩
    · omega
    · rw [h₂] at h₁
      omega
    · rw [h₁] at h₂
      omega
    · rw [le_antisymm h₁' h₂']

/-- A line has uncalled units of the article, under its ceiling (R167). -/
def Part.freeUnits (p : Part) (b a w : Nat) (o : Order) (l : Line) : Prop :=
  0 < l.uncalled ∧ p.currentArticle l = some a ∧ (p.build b).committed + w ≤ o.ceiling

section Source

variable {o : Order} {l : Line}

theorem claimSource_uncalled (h : p.freeUnits b a w o l) : p.claimSource b i a w o l = some .uncalled := if_pos h

theorem claimSource_uncalled_iff : p.claimSource b i a w o l = some .uncalled ↔ p.freeUnits b a w o l := by
  refine ⟨fun h => by_contra fun hn => ?_, claimSource_uncalled⟩
  have e : p.claimSource b i a w o l = match p.claimRecord b i a with
      | some r => if (p.build b).committed + w ≤ o.ceiling + (p.call r).nominal then some (.call r) else none
      | none => none := if_neg hn
  rw [e] at h
  split at h
  · split at h <;> cases h
  · cases h

theorem claimSource_call_iff (h : ¬ p.freeUnits b a w o l) : p.claimSource b i a w o l = some (.call r) ↔
    p.claimRecord b i a = some r ∧ (p.build b).committed + w ≤ o.ceiling + (p.call r).nominal := by
  have e : p.claimSource b i a w o l = match p.claimRecord b i a with
      | some r => if (p.build b).committed + w ≤ o.ceiling + (p.call r).nominal then some (.call r) else none
      | none => none := if_neg h
  rw [e]
  cases p.claimRecord b i a with
  | none => simp
  | some k =>
    by_cases hw : (p.build b).committed + w ≤ o.ceiling + (p.call k).nominal
    · simp only [hw, if_true, Option.some.injEq, Source.call.injEq]
      exact ⟨fun e => ⟨e, e ▸ hw⟩, fun e => e.1⟩
    · simp only [hw, if_false, reduceCtorEq, Option.some.injEq, false_iff]
      exact fun e => hw (e.1 ▸ e.2)

end Source

/-! ### The line that claims (R167, R168) -/

/-- The build of a bay may take a carrier of the article for its order (R167). -/
def Part.claimAdmits (p : Part) (b a : Nat) (o : Order) : Prop :=
  (p.build b).state = .gathering ∧ (p.build b).holdFlag = false ∧
    inZones (p.bayDir b).zones (p.article a).zone = true ∧ p.orderAt b = some o

/-- A line offers a source for the carrier (R167). -/
def Part.claimAt (p : Part) (a w b i : Nat) (o : Order) (source : Source) : Prop :=
  p.claimAdmits b a o ∧ ∃ l, Map.find? o.lines i = some l ∧ p.claimSource b i a w o l = some source

theorem claimLine_eq_some {e : Nat × Nat × Source × Order} : p.claimLine b a w = some e ↔
    p.claimAdmits b a e.2.2.2 ∧ e.2.2.2.lines.findSome? (fun kv =>
      (p.claimSource b kv.1 a w e.2.2.2 kv.2).map (fun s => (b, kv.1, s, e.2.2.2))) = some e := by
  unfold Part.claimLine Part.claimAdmits
  by_cases h : (p.build b).state = .gathering ∧ (p.build b).holdFlag = false ∧
      inZones (p.bayDir b).zones (p.article a).zone = true
  · obtain ⟨hg, hh, hz⟩ := h
    simp only [hg, hh, hz, decide_true, Bool.not_false, Bool.and_self, if_true, true_and, Option.bind_eq_some_iff]
    constructor
    · rintro ⟨o, ho, hf⟩
      obtain ⟨_, _, _, -, hx, -⟩ := List.findSome?_eq_some_iff.mp hf
      obtain ⟨_, -, rfl⟩ := Option.map_eq_some_iff.mp hx
      exact ⟨ho, hf⟩
    · exact fun h => ⟨_, h⟩
  · rw [if_neg (by simpa [and_assoc] using h)]
    simp only [reduceCtorEq, false_iff]
    tauto

theorem claimAt_of_claimLine (hr : ∀ b o, p.orderAt b = some o → Map.rising o.lines = true)
    {e : Nat × Nat × Source × Order} (h : p.claimLine b a w = some e) :
    e.1 = b ∧ p.claimAt a w b e.2.1 e.2.2.2 e.2.2.1 := by
  obtain ⟨hadmits, hf⟩ := claimLine_eq_some.mp h
  obtain ⟨k, l, hl, hx, -⟩ := Map.findSome?_of_rising (hr b _ hadmits.2.2.2) hf
  obtain ⟨source, hs, he⟩ := Option.map_eq_some_iff.mp hx
  obtain ⟨b', i, s', o⟩ := e
  simp only [Prod.mk.injEq] at he hadmits hl hs ⊢
  obtain ⟨rfl, rfl, rfl, -⟩ := he
  exact ⟨rfl, hadmits, l, hl, hs⟩

/-- The lowest line that offers a source is the one its bay puts forward (R167). -/
theorem claimLine_of_claimAt (hr : ∀ b o, p.orderAt b = some o → Map.rising o.lines = true) {o : Order}
    {source : Source} (h : p.claimAt a w b i o source) (hmin : ∀ j s, p.claimAt a w b j o s → i ≤ j) :
    p.claimLine b a w = some (b, i, source, o) := by
  obtain ⟨hadmits, l, hl, hs⟩ := h
  have hr := hr b o hadmits.2.2.2
  have image : ∀ {k v s}, p.claimSource b k a w o v = some s →
      (p.claimSource b k a w o v).map (fun s => (b, k, s, o)) = some (b, k, s, o) := fun e => by rw [e]; rfl
  refine claimLine_eq_some.mpr ⟨hadmits, ?_⟩
  cases hf : o.lines.findSome? (fun kv => (p.claimSource b kv.1 a w o kv.2).map (fun s => (b, kv.1, s, o))) with
  | none =>
    have := List.findSome?_eq_none_iff.mp hf (i, l) (Map.mem_of_find? hl)
    rw [image hs] at this
    cases this
  | some e =>
    obtain ⟨k, v, hk, hx, hle⟩ := Map.findSome?_of_rising hr hf
    obtain ⟨s', hs', rfl⟩ := Option.map_eq_some_iff.mp hx
    have hki : k ≤ i := hle i l hl (by rw [image hs]; rfl)
    obtain rfl : i = k := le_antisymm (hmin k s' ⟨hadmits, v, hk, hs'⟩) hki
    obtain rfl : l = v := Option.some.inj (hl.symm.trans hk)
    rw [Option.some.inj (hs.symm.trans hs')]

theorem claimant_invalid (h : (p.article a).valid = false) : p.claimant a w = none := by
  rw [Part.claimant, h]
  rfl

theorem claimant_none (hr : ∀ b o, p.orderAt b = some o → Map.rising o.lines = true)
    (h : ∀ b i o s, 1 ≤ b → b ≤ 64 → ¬ p.claimAt a w b i o s) : p.claimant a w = none := by
  rw [Part.claimant]
  split
  · rw [best_eq_none_iff, List.filterMap_eq_nil_iff]
    intro b hb
    have hb' := List.mem_range'_1.mp hb
    rw [Option.eq_none_iff_forall_ne_some]
    exact fun e he => h b _ _ _ hb'.1 (Nat.lt_succ_iff.mp hb'.2) (claimAt_of_claimLine hr he).2
  · rfl

/-- The claim goes to the lowest line of the most urgent build, the lower bay where the key leaves two equal (R168). -/
theorem claimant_first (hr : ∀ b o, p.orderAt b = some o → Map.rising o.lines = true)
    (hv : (p.article a).valid = true) {o : Order} {source : Source} (h₁ : 1 ≤ b) (h₂ : b ≤ 64)
    (h : p.claimAt a w b i o source)
    (hmin : ∀ b' i' o' s', 1 ≤ b' → b' ≤ 64 → p.claimAt a w b' i' o' s' → moreUrgent o' o = false ∧
      (moreUrgent o o' = false → b ≤ b') ∧ (b' = b → i ≤ i')) : p.claimant a w = some (b, i, source, o) := by
  have hmem : (b, i, source, o) ∈ Config.bays.filterMap (fun b => p.claimLine b a w) :=
    List.mem_filterMap.mpr ⟨b, List.mem_range'_1.mpr ⟨h₁, Nat.lt_succ_iff.mpr h₂⟩,
      claimLine_of_claimAt hr h fun j s hj => (hmin b j o s h₁ h₂ hj).2.2 rfl⟩
  rw [Part.claimant, if_pos hv]
  refine best_of_bays (fun x : Nat × Source × Order => x.2.2.urgencyKey)
    (fun x y => moreUrgent_iff_urgencyKey_lt x.2.2.2 y.2.2.2) (fun b e he => (claimAt_of_claimLine hr he).1) hmem
    fun m hm => ?_
  obtain ⟨b', hb', hline⟩ := List.mem_filterMap.mp hm
  obtain ⟨rfl, hat⟩ := claimAt_of_claimLine hr hline
  have hb' := List.mem_range'_1.mp hb'
  obtain ⟨hle, hbay, -⟩ := hmin _ _ _ _ hb'.1 (Nat.lt_succ_iff.mp hb'.2) hat
  rw [moreUrgent_eq_false_iff] at hle hbay
  exact ⟨hle, hbay⟩

/-! ### The claim (R141, R167) -/

/-- At the bay's steering arch a read of the article makes a steering attempt at once (R167). -/
def Part.steerAtOnce (off : LaneAction) (c b i a : Nat) (g : Sight) (v : Part) : Part :=
  if v.atSteeringArch b g.arch && g.articleRead = .article a then v.steerAttempt off c b i else v

theorem claim_none (h : p.claimant (p.carrier c).article (p.carrierWeight (p.carrier c)) = none) :
    p.claim off c g = p := by
  simp only [Part.claim, h]

/-- The carrier becomes EN_ROUTE for the line that claims it, with laps 0 (R167). -/
def Part.claimed (c b i : Nat) (p : Part) : Part :=
  p.setCarrier c { p.carrier c with state := .enRoute b i, laps := 0 }

theorem claim_uncalled {o : Order}
    (h : p.claimant (p.carrier c).article (p.carrierWeight (p.carrier c)) = some (b, i, .uncalled, o)) :
    p.claim off c g = (((p.claimed c b i).move b i .uncalled .enRoute 1).weigh b
      (p.carrierWeight (p.carrier c)) 0).steerAtOnce off c b i (p.carrier c).article g := by
  simp only [Part.claim, h]
  rfl

theorem claim_call {o : Order} {r : Nat}
    (h : p.claimant (p.carrier c).article (p.carrierWeight (p.carrier c)) = some (b, i, .call r, o)) :
    p.claim off c g = ((((p.claimed c b i).lowerCall off r).move b i .outstanding .enRoute 1).weigh b
      (p.carrierWeight (p.carrier c)) (p.call r).nominal).steerAtOnce off c b i (p.carrier c).article g := by
  simp only [Part.claim, h]
  rfl

theorem lowerCall_left {r : Nat} (h : 1 < (p.call r).count) :
    p.lowerCall off r = p.modCall r (fun k => { k with count := k.count - 1 }) := by
  simp only [Part.lowerCall, Part.call_modCall_self]
  exact if_neg (by omega)

theorem lowerCall_last {r : Nat} (h : (p.call r).count = 1) :
    p.lowerCall off r = (p.modCall r (fun k => { k with count := k.count - 1 })).freeAndOffer off r := by
  simp only [Part.lowerCall, Part.call_modCall_self]
  exact if_pos (by omega)

theorem tables_lowerCall (r : Nat) (p : Part) : (p.lowerCall takeLaneOut r).tables = p.tables :=
  (kept_tables p.tables).lowerCall (fun l _ h => (kept_tables p.tables).takeLaneOut l h) r rfl

theorem tables_modLine (b i : Nat) (f : Line → Line) (p : Part) : (p.modLine b i f).tables = p.tables :=
  Part.tables_modOrder _ _ _

/-- What a claim does at an arch: a steering attempt at the bay's steering arch when the article was read, and nothing
otherwise (R167). -/
def Part.steersAtOnce (c b i a : Nat) (g : Sight) (p v t : Part) : Prop :=
  (g.arch ≠ 0 → (p.bayDir b).arch = g.arch → g.read = a → 1 ≤ a → a ≤ 8191 → t = v.steerAttempt takeLaneOut c b i) ∧
    (g.arch = 0 ∨ (p.bayDir b).arch ≠ g.arch ∨ g.read ≠ a → t = v)

theorem steerAtOnce_steersAtOnce {v : Part} (hv : v.tables = p.tables) :
    p.steersAtOnce c b i a g v (v.steerAtOnce takeLaneOut c b i a g) := by
  have arch : v.atSteeringArch b g.arch = true ↔ g.arch ≠ 0 ∧ (p.bayDir b).arch = g.arch := by
    simp [Part.atSteeringArch, Part.bayDir, hv]
  refine ⟨fun h₀ ha hread h₁ h₂ => if_pos ?_, fun h => if_neg fun hs => ?_⟩
  · rw [articleRead_article (by omega) (by omega), hread, arch.mpr ⟨h₀, ha⟩]
    simp
  · obtain ⟨hs, hread⟩ := Bool.and_eq_true_iff.mp hs
    obtain ⟨h₀, ha⟩ := arch.mp hs
    have hread : g.articleRead = .article a := of_decide_eq_true hread
    have : g.read = a := by
      unfold Sight.articleRead at hread
      split at hread
      · cases hread
      · split at hread
        · exact ArticleRead.article.inj hread
        · cases hread
    tauto

theorem tables_weigh_move (b i up down k : Nat) (source target : Place) (p : Part) :
    ((p.move b i source target k).weigh b up down).tables = p.tables := tables_modLine _ _ _ _

/-- A claim from uncalled units moves one of them and the carrier's weight (R141, R167). -/
theorem claim_fromUncalled {o : Order}
    (h : p.claimant (p.carrier c).article (p.carrierWeight (p.carrier c)) = some (b, i, .uncalled, o)) :
    ∃ v : Part, p.steersAtOnce c b i (p.carrier c).article g v (p.claim takeLaneOut c g) ∧
      v.Same (((p.claimed c b i).modLine b i (fun l =>
        { l with uncalled := l.uncalled - 1, enRoute := l.enRoute + 1 })).modBuild b (fun y =>
          { y with committed := y.committed + p.carrierWeight (p.carrier c) })) := by
  rw [claim_uncalled h]
  exact ⟨_, steerAtOnce_steersAtOnce (tables_weigh_move _ _ _ _ _ _ _ _), Part.Same.refl _⟩

/-- A claim from a QUEUED call takes one of its units, a call left without units being freed and offered first, and the
carrier's weight takes the place of the call's nominal (R141, R167). -/
theorem claim_fromCall {o : Order} {r : Nat}
    (h : p.claimant (p.carrier c).article (p.carrierWeight (p.carrier c)) = some (b, i, .call r, o)) :
    ∃ v : Part, p.steersAtOnce c b i (p.carrier c).article g v (p.claim takeLaneOut c g) ∧
      v.Same ((((p.claimed c b i).lowerCall takeLaneOut r).modLine b i (fun l =>
        { l with outstanding := l.outstanding - 1, enRoute := l.enRoute + 1 })).modBuild b (fun y =>
          { y with committed := y.committed + p.carrierWeight (p.carrier c) - (p.call r).nominal })) := by
  rw [claim_call h]
  have tables : ((p.claimed c b i).lowerCall takeLaneOut r).tables = p.tables := tables_lowerCall r (p.claimed c b i)
  exact ⟨_, steerAtOnce_steersAtOnce ((tables_weigh_move _ _ _ _ _ _ _ _).trans tables), Part.Same.refl _⟩

/-- Settles O47: the claim goes where the most urgent offer is, and moves its unit. -/
theorem surplusCarriersAreClaimed : Obligations.SurplusCarriersAreClaimed := by
  intro p c g _ hrecs hlines x a w t admits fromUncalled calls fromCall offers first attempts
  have hw : p.carrierWeight (p.carrier c) = w := carrierWeight_eq x
  have uncalled : ∀ {b i o}, fromUncalled b i o ↔
      (p.article a).valid = true ∧ 1 ≤ b ∧ b ≤ 64 ∧ p.claimAt a w b i o .uncalled := by
    intro b i o
    constructor
    · rintro ⟨⟨hv, h₁, h₂, hadmits⟩, l, hl, hu, hceil, hart⟩
      exact ⟨hv, h₁, h₂, hadmits, l, hl, claimSource_uncalled ⟨hu, hart, hceil⟩⟩
    · rintro ⟨hv, h₁, h₂, hadmits, l, hl, hs⟩
      obtain ⟨hu, hart, hceil⟩ := claimSource_uncalled_iff.mp hs
      exact ⟨⟨hv, h₁, h₂, hadmits⟩, l, hl, hu, hceil, hart⟩
  have call : ∀ {b i o r}, fromCall b i o r ↔
      (p.article a).valid = true ∧ 1 ≤ b ∧ b ≤ 64 ∧ p.claimAt a w b i o (.call r) := by
    intro b i o r
    constructor
    · rintro ⟨⟨hv, h₁, h₂, hadmits⟩, hl, hn, hcalls, hceil, hmax⟩
      obtain ⟨l, hl⟩ := Option.isSome_iff_exists.mp hl
      have hfree : ¬ p.freeUnits b a w o l := fun hf =>
        hn (uncalled.mpr ⟨hv, h₁, h₂, hadmits, l, hl, claimSource_uncalled hf⟩)
      exact ⟨hv, h₁, h₂, hadmits, l, hl,
        (claimSource_call_iff hfree).mpr ⟨(claimRecord_eq_some_iff hrecs).mpr ⟨hcalls, hmax⟩, hceil⟩⟩
    · rintro ⟨hv, h₁, h₂, hadmits, l, hl, hs⟩
      have hfree : ¬ p.freeUnits b a w o l := fun hf => by
        rw [claimSource_uncalled hf] at hs
        cases hs
      obtain ⟨hrec, hceil⟩ := (claimSource_call_iff hfree).mp hs
      obtain ⟨hcalls, hmax⟩ := (claimRecord_eq_some_iff hrecs).mp hrec
      refine ⟨⟨hv, h₁, h₂, hadmits⟩, Option.isSome_of_eq_some hl, fun hu => ?_, hcalls, hceil, hmax⟩
      obtain ⟨-, -, -, -, l', hl', hs'⟩ := uncalled.mp hu
      obtain rfl : l = l' := Option.some.inj (hl.symm.trans hl')
      exact hfree (claimSource_uncalled_iff.mp hs')
  have offer : ∀ {b i o s}, (p.article a).valid = true → 1 ≤ b → b ≤ 64 → p.claimAt a w b i o s → offers b i o := by
    intro b i o s hv h₁ h₂ h
    cases s with
    | uncalled => exact .inl (uncalled.mpr ⟨hv, h₁, h₂, h⟩)
    | call r => exact .inr ⟨r, call.mpr ⟨hv, h₁, h₂, h⟩⟩
  refine ⟨fun hnone => claim_none ?_, fun b i o hfirst => ⟨fun hu => ?_, fun r hr => ?_⟩⟩
  · rw [hw]
    cases hv : (p.article a).valid with
    | false => exact claimant_invalid hv
    | true => exact claimant_none hlines fun b i o s h₁ h₂ h => hnone b i o (offer hv h₁ h₂ h)
  · obtain ⟨hv, h₁, h₂, hat⟩ := uncalled.mp hu
    have claimant := claimant_first hlines hv h₁ h₂ hat fun b' i' o' s' h₁' h₂' h' =>
      hfirst b' i' o' (offer hv h₁' h₂' h')
    rw [← hw] at claimant ⊢
    exact claim_fromUncalled claimant
  · obtain ⟨hv, h₁, h₂, hat⟩ := call.mp hr
    have claimant := claimant_first hlines hv h₁ h₂ hat fun b' i' o' s' h₁' h₂' h' =>
      hfirst b' i' o' (offer hv h₁' h₂' h')
    rw [← hw] at claimant ⊢
    obtain ⟨v, hv, hsame⟩ := claim_fromCall (g := g) claimant
    exact ⟨(p.claimed c b i).lowerCall takeLaneOut r, v, hv,
      fun hlt => Part.Same.of_eq (lowerCall_left (by exact hlt)), fun hlast => lowerCall_last (by exact hlast), hsame⟩

end Sys2Proof.Machine

namespace Sys2Proof.Machine

variable {p q : Part} {l r : Nat} {z : Zone}

/-! ### A lane's candidate and a zone's offers (R120, R149) -/

/-- A record of a lane's queue may be sent while the part runs (R120). -/
def Part.sendable (p : Part) (l r : Nat) : Prop :=
  (p.call r).state = .queued ∧ (p.lane l).online = true ∧ (p.lane l).busy = none ∧
    (p.build (p.call r).bay).holdFlag = false

theorem eligible_iff (hm : p.mode = .run) : p.eligible l r = true ↔ p.sendable l r := by
  simp [Part.eligible, Part.sendable, hm, and_assoc]

/-- A record is the first of its lane's queue that may be sent (R120). -/
def Part.firstSendable (p : Part) (l r : Nat) : Prop :=
  p.sendable l r ∧ ∃ before after, (p.lane l).queue = before ++ r :: after ∧ ∀ x ∈ before, ¬ p.sendable l x

theorem laneCandidate_eq_some (hm : p.mode = .run) : p.laneCandidate l = some r ↔ p.firstSendable l r := by
  rw [Part.laneCandidate, List.find?_eq_some_iff_append, eligible_iff hm]
  simp only [Bool.not_eq_true', ← Bool.not_eq_true, eligible_iff hm]
  rfl

theorem laneCandidate_eq_none (hm : p.mode = .run) :
    p.laneCandidate l = none ↔ ∀ x ∈ (p.lane l).queue, ¬ p.sendable l x := by
  simp only [Part.laneCandidate, List.find?_eq_none, eligible_iff hm]

/-- A lane of a zone offers its candidate (R149). -/
def Part.offersCall (p : Part) (z : Zone) (l r : Nat) : Prop :=
  1 ≤ l ∧ l ≤ 255 ∧ (p.laneDir l).zone = z ∧ p.firstSendable l r

theorem mem_zoneOffers (hm : p.mode = .run) : (l, r) ∈ p.zoneOffers z ↔ p.offersCall z l r := by
  simp only [Part.zoneOffers, List.mem_filterMap, Config.lanes, List.mem_range'_1, Part.offersCall]
  constructor
  · rintro ⟨a, ⟨h₁, h₂⟩, h⟩
    split at h
    · next hz =>
      obtain ⟨x, hx, he⟩ := Option.map_eq_some_iff.mp h
      obtain ⟨rfl, rfl⟩ := Prod.mk.inj he
      exact ⟨h₁, by omega, hz, (laneCandidate_eq_some hm).mp hx⟩
    · cases h
  · rintro ⟨h₁, h₂, hz, hf⟩
    refine ⟨l, ⟨h₁, by omega⟩, ?_⟩
    rw [if_pos hz, (laneCandidate_eq_some hm).mpr hf]
    rfl

theorem zoneOffers_isEmpty (hm : p.mode = .run) :
    (p.zoneOffers z).isEmpty = true ↔ ∀ l r, ¬ p.offersCall z l r := by
  rw [List.isEmpty_iff, List.eq_nil_iff_forall_not_mem]
  exact ⟨fun h l r hr => h (l, r) ((mem_zoneOffers hm).mpr hr), fun h x hx => h x.1 x.2 ((mem_zoneOffers hm).mp hx)⟩

theorem zoneOffers_rising (z : Zone) (p : Part) : (p.zoneOffers z).Pairwise (fun x y => x.1 < y.1) := by
  refine List.pairwise_filterMap.mpr ((List.pairwise_lt_range' 1).imp fun {a a'} hlt e he e' he' => ?_)
  have lane : ∀ {a e}, (if (p.laneDir a).zone = z then (p.laneCandidate a).map (fun r => (a, r)) else none) = some e →
      e.1 = a := fun {a e} h => by
    split at h
    · obtain ⟨r, -, rfl⟩ := Option.map_eq_some_iff.mp h
      rfl
    · cases h
  rw [lane he, lane he']
  exact hlt

/-! ### The choice among the offered calls (R149) -/

/-- The urgency of an offered call's build and then its sequence number, the first of them the more significant. -/
def Part.offerKey (p : Part) (x : Nat × Nat) : (Nat ×ₗ Nat ×ₗ Nat) ×ₗ Nat :=
  toLex (((p.orderAt (p.call x.2).bay).map Order.urgencyKey).getD (toLex (0, toLex (0, 0))), (p.call x.2).seq.toNat)

theorem offerBefore_iff {x y : Nat × Nat} {o o' : Order} (hx : p.orderAt (p.call x.2).bay = some o)
    (hy : p.orderAt (p.call y.2).bay = some o') : p.offerBefore x y = true ↔ p.offerKey x < p.offerKey y := by
  have equal : equallyUrgent o o' = true ↔ o.urgencyKey = o'.urgencyKey := by
    rw [Order.urgencyKey_eq_iff]
    simp [equallyUrgent, and_assoc]
  simp only [Part.offerBefore, hx, hy, Part.offerKey, Option.map_some, Option.getD_some,
    Prod.Lex.toLex_lt_toLex, Bool.or_eq_true, Bool.and_eq_true, decide_eq_true_eq, moreUrgent_iff_urgencyKey_lt, equal]

/-- A zone's offer goes before all its others: by the build's urgency, the call's sequence number, the lane (R149). -/
def Part.goesFirst (p : Part) (z : Zone) (l r : Nat) : Prop :=
  p.offersCall z l r ∧ ∀ a x, p.offersCall z a x →
    ∃ o o', p.orderAt (p.call r).bay = some o ∧ p.orderAt (p.call x).bay = some o' ∧
      (moreUrgent o o' = true ∨ (moreUrgent o' o = false ∧
        ((p.call r).seq.toNat < (p.call x).seq.toNat ∨ ((p.call r).seq = (p.call x).seq ∧ l ≤ a))))

theorem best_zoneOffers (hm : p.mode = .run) (h : p.goesFirst z l r) :
    best p.offerBefore (p.zoneOffers z) = some (l, r) := by
  obtain ⟨hoffer, hfirst⟩ := h
  have order : ∀ x ∈ p.zoneOffers z, ∃ o, p.orderAt (p.call x.2).bay = some o := fun x hx => by
    obtain ⟨-, o', -, ho', -⟩ := hfirst x.1 x.2 ((mem_zoneOffers hm).mp hx)
    exact ⟨o', ho'⟩
  refine best_of_rising p.offerKey (fun x hx y hy => ?_) (zoneOffers_rising z p) ((mem_zoneOffers hm).mpr hoffer)
    fun m hmem => ?_
  · obtain ⟨o, ho⟩ := order x hx
    obtain ⟨o', ho'⟩ := order y hy
    exact offerBefore_iff ho ho'
  · obtain ⟨o, o', ho, ho', hcase⟩ := hfirst m.1 m.2 ((mem_zoneOffers hm).mp hmem)
    simp only [Part.offerKey, ho, ho', Option.map_some, Option.getD_some, Prod.Lex.toLex_le_toLex]
    rw [moreUrgent_iff_urgencyKey_lt, moreUrgent_eq_false_iff] at hcase
    rcases hcase with hlt | ⟨hle, hseq⟩
    · exact ⟨.inl hlt, fun h => absurd h (by simp [hlt.not_gt, hlt.ne'])⟩
    · rcases hle.lt_or_eq with hlt | heq
      · exact ⟨.inl hlt, fun h => absurd h (by simp [hlt.not_gt, hlt.ne'])⟩
      · rcases hseq with hlt | ⟨hs, hla⟩
        · exact ⟨.inr ⟨heq, hlt.le⟩, fun h => absurd h (by simp [heq, hlt])⟩
        · exact ⟨.inr ⟨heq, by rw [hs]⟩, fun _ => hla⟩

/-! ### Sending a call (R126, R150) -/

theorem modLane_modLane (l : Nat) (f g : Lane → Lane) (p : Part) :
    ((p.modLane l g).modLane l f).Same (p.modLane l (fun x => f (g x))) := by
  constructor
  case lane =>
    intro k
    by_cases hk : k = l <;> simp [hk, Part.lane_modLane]
  all_goals intros; rfl

theorem Part.Same.modCall (h : p.Same q) (r : Nat) (f : Call → Call) : (p.modCall r f).Same (q.modCall r f) :=
  { h with call := fun k => by simp only [Part.call_modCall, h.call] }

/-- The Call frame of a record at a lane (R126). -/
def Part.callFrame (p : Part) (l r : Nat) : Post :=
  ⟨.call, (p.laneDir l).node,
    callPayload (callTag r (p.call r).generation) (p.call r).article (min (p.call r).count (p.laneDir l).burst)⟩

theorem sendCall_full (h : 48 ≤ p.ring.normal.length) : p.sendCall l r = p.count .opportunitiesLost := by
  have e : p.post (p.callFrame l r) = none := Part.post_full (show SentKind.call ≠ .steer by decide) (not_lt.mpr h)
  rw [Part.callFrame] at e
  simp only [Part.sendCall, e]

/-- The record is SENT, and its lane busy with it (R116, R126). -/
theorem sendCall_room (h : p.ring.normal.length < 48) : (p.sendCall l r).Same
    (((p.posted (p.callFrame l r)).modLane l
      (fun x => { x with queue := x.queue.filter (· ≠ r), busy := some r })).modCall r (fun x => { x with
        state := .sent, sentCount := min (p.call r).count (p.laneDir l).burst, lastLane := l,
        answer := .running (p.const 0) })) := by
  have e : p.post (p.callFrame l r) = some (p.posted (p.callFrame l r)) :=
    Part.post_room (show SentKind.call ≠ .steer by decide) h
  rw [Part.callFrame] at e
  simp only [Part.sendCall, e]
  exact (modLane_modLane l _ _ (p.posted (p.callFrame l r))).modCall r _

/-! ### The entry a visit comes to (R145, R146) -/

/-- The zones that a search from the zone pointer passes, in its order (R148). -/
theorem roundFrom_eq (z : Zone) : z.roundFrom = match z with
    | .ambient => [Zone.ambient, .chilled, .fragile, .bottle]
    | .chilled => [.chilled, .fragile, .bottle, .ambient]
    | .fragile => [.fragile, .bottle, .ambient, .chilled]
    | .bottle => [.bottle, .ambient, .chilled, .fragile] := by
  cases z <;> rfl

/-- A zone has credit and a call to send (R148 step 1). -/
def Part.zoneReady (p : Part) (credits : List Nat) (z : Zone) : Prop :=
  0 < credits.getD z.code 0 ∧ ∃ l r, p.offersCall z l r

theorem credit_ready (hm : p.mode = .run) :
    (decide (0 < p.credit z) && !(p.zoneOffers z).isEmpty) = true ↔ p.zoneReady p.cal.credits z := by
  rw [Bool.and_eq_true, decide_eq_true_eq, Bool.not_eq_true', ← Bool.not_eq_true, zoneOffers_isEmpty hm]
  simp [Part.zoneReady, Part.credit]

theorem zoneFound_eq_some (hm : p.mode = .run) : p.zoneFound = some z ↔ p.zoneReady p.cal.credits z ∧
    ∃ before after, p.cal.zone.roundFrom = before ++ z :: after ∧ ∀ y ∈ before, ¬ p.zoneReady p.cal.credits y := by
  rw [Part.zoneFound, List.find?_eq_some_iff_append, credit_ready hm]
  simp only [Bool.not_eq_true', ← Bool.not_eq_true, credit_ready hm]

theorem not_zoneReady_iff {credits : List Nat} :
    ¬ p.zoneReady credits z ↔ credits.getD z.code 0 = 0 ∨ ∀ l r, ¬ p.offersCall z l r := by
  simp only [Part.zoneReady, not_and_or, Nat.pos_iff_ne_zero, not_not, not_exists]

theorem mem_roundFrom (y z : Zone) : y ∈ z.roundFrom := by cases y <;> cases z <;> decide

theorem zoneFound_eq_none (hm : p.mode = .run) : p.zoneFound = none ↔ ∀ z, ¬ p.zoneReady p.cal.credits z := by
  simp only [Part.zoneFound, List.find?_eq_none, credit_ready hm, mem_roundFrom, forall_const]

/-! ### Free selection (R148) -/

theorem serveZone_first (hm : p.mode = .run) (h : p.goesFirst z l r) :
    p.serveZone z = (p.spendCredit z).sendCall l r := by
  rw [Part.serveZone, best_zoneOffers hm h]

theorem freeSelection_found (hm : p.mode = .run) (hz : p.zoneFound = some z) (h : p.goesFirst z l r) :
    p.freeSelection = (p.spendCredit z).sendCall l r := by
  rw [Part.freeSelection, hz]
  exact serveZone_first hm h

/-- Whether the credits are reloaded: a zone of weight above 0 has a call to send (R148 step 2). -/
theorem reload_iff (hm : p.mode = .run) :
    Zone.ambient.roundFrom.any (fun z => decide (0 < p.weight z) && !(p.zoneOffers z).isEmpty) = true ↔
      ∃ z, p.zoneReady p.tables.weights z := by
  simp only [List.any_eq_true, mem_roundFrom, true_and]
  exact exists_congr fun z => credit_ready (p := p.reloadCredits) hm

theorem freeSelection_reloaded (hm : p.mode = .run) (hnone : p.zoneFound = none)
    (hz : p.reloadCredits.zoneFound = some z) (h : p.goesFirst z l r) :
    p.freeSelection = (p.reloadCredits.spendCredit z).sendCall l r := by
  have ready := ((zoneFound_eq_some (p := p.reloadCredits) hm).mp hz).1
  rw [Part.freeSelection, hnone]
  simp only [(reload_iff hm).mpr ⟨z, ready⟩, if_true, hz]
  exact serveZone_first (p := p.reloadCredits) hm h

theorem freeSelection_idle (hm : p.mode = .run) (hnone : p.zoneFound = none)
    (h : ∀ z, ¬ p.zoneReady p.tables.weights z) : p.freeSelection = p := by
  rw [Part.freeSelection, hnone]
  exact if_neg fun hr => by
    obtain ⟨z, hz⟩ := (reload_iff hm).mp hr
    exact h z hz

/-! ### The opportunity (R144 to R146) -/

/-- The part once its calendar pointer has moved on (R145). -/
def Part.calendarMoved (p : Part) : Part := { p with cal := { p.cal with pointer := p.pointerAfter } }

theorem opportunity_named (hl : p.visitedLane ≠ 0) (h : p.calendarMoved.laneCandidate p.visitedLane = some r) :
    p.opportunity = p.calendarMoved.sendCall p.visitedLane r := by
  rw [Part.calendarMoved] at h
  simp only [Part.opportunity, if_neg hl, h]
  rfl

theorem opportunity_free (h : p.visitedLane = 0 ∨ p.calendarMoved.laneCandidate p.visitedLane = none) :
    p.opportunity = p.calendarMoved.freeSelection := by
  by_cases hl : p.visitedLane = 0
  · exact if_pos hl
  · have h := h.resolve_left hl
    rw [Part.calendarMoved] at h
    simp only [Part.opportunity, if_neg hl, h]
    rfl

theorem exec_pitch_eq {s : State} {pkt : Packet} (h : s.part.hears pkt) (hm : s.part.mode = .run) :
    exec (.pitch pkt) s = .next { s with part := (s.part.passOn .pitch pkt).opportunity } :=
  (exec_pitch pkt s).trans (State.onPart_eq (Part.deliver_pitch h hm))

theorem visited_eq (p : Part) : p.visited = if p.cal.pointer < p.const 9 then p.cal.pointer else 0 := by
  rw [Part.visited, Part.calendarLength]
  split <;> split <;> omega

theorem visitedLane_eq (p : Part) :
    p.visitedLane =
      if p.const 9 = 0 then 0 else p.calendarEntry (if p.cal.pointer < p.const 9 then p.cal.pointer else 0) := by
  rw [← visited_eq]
  rfl

theorem calendarMoved_eq (p : Part) : p.calendarMoved = { p with cal := { p.cal with
    pointer := if (if p.cal.pointer < p.const 9 then p.cal.pointer else 0) + 1 < p.const 9 then
      (if p.cal.pointer < p.const 9 then p.cal.pointer else 0) + 1 else 0 } } := by
  rw [← visited_eq, Part.calendarMoved, Part.pointerAfter, Part.calendarLength]
  congr 2
  by_cases h : p.visited + 1 < p.const 9
  · rw [if_pos h, if_neg (by omega)]
  · rw [if_neg h, if_pos (by omega)]

/-- What an opportunity that sends a call leaves: the full queue loses it, and otherwise the Call frame is posted (R126,
R150). -/
theorem exec_sendCall {s : State} {c : Instr} (he : exec c s = .next { s with part := p.sendCall l r }) :
    (48 ≤ p.ring.normal.length → exec c s = .next { s with part := p.count .opportunitiesLost }) ∧
    (p.ring.normal.length < 48 → ∃ t, exec c s = .next { s with part := t } ∧
      t.Same (((p.posted (p.callFrame l r)).modLane l
        (fun x => { x with queue := x.queue.filter (· ≠ r), busy := some r })).modCall r (fun x => { x with
          state := .sent, sentCount := min (p.call r).count (p.laneDir l).burst, lastLane := l,
          answer := .running (p.const 0) }))) :=
  ⟨fun h => by rw [he, sendCall_full h], fun h => ⟨_, he, sendCall_room h⟩⟩

/-- Settles O42: the calendar names the lane that sends its candidate, and free selection finds the zone, reloading the
credits where no zone with credit has a call. -/
theorem pitchesSendACall : Obligations.PitchesSendACall := by
  intro s pkt h hm length entry moved named eligible first sends free offers share found goesFirst spent credits weights
  have run := exec_pitch_eq h hm
  have lane : (s.part.passOn .pitch pkt).visitedLane = named := visitedLane_eq (s.part.passOn .pitch pkt)
  have after : (s.part.passOn .pitch pkt).calendarMoved = moved := calendarMoved_eq (s.part.passOn .pitch pkt)
  have hm' : moved.mode = .run := hm
  have ready : ∀ credits z, found credits z → moved.zoneReady credits z ∧ ∃ before after,
      moved.cal.zone.roundFrom = before ++ z :: after ∧ ∀ y ∈ before, ¬ moved.zoneReady credits y := by
    rintro credits z ⟨before, rest, hround, hpos, hoffer, hbefore⟩
    exact ⟨⟨hpos, hoffer⟩, before, rest, (roundFrom_eq _).trans hround,
      fun y hy => not_zoneReady_iff.mpr (hbefore y hy)⟩
  have idle : ∀ credits, (∀ z, share credits z = 0 ∨ ∀ l r, ¬ offers z l r) → ∀ z, ¬ moved.zoneReady credits z :=
    fun credits h z => not_zoneReady_iff.mpr (h z)
  have selects : free → exec (.pitch pkt) s = .next { s with part := moved.freeSelection } := fun hfree => by
    rw [run, opportunity_free, after]
    rw [lane, after]
    exact hfree.imp id (laneCandidate_eq_none hm').mpr
  refine ⟨fun r hnamed hfirst => ?_, fun hfree z l r hfound hgoes => ?_,
    fun hfree hnone => ⟨fun z l r hfound hgoes => ?_, fun hnone' => ?_⟩⟩
  · have cand : moved.laneCandidate named = some r := (laneCandidate_eq_some hm').mpr hfirst
    refine exec_sendCall (p := moved) ?_
    rw [run, opportunity_named (r := r), after, lane]
    · rwa [lane]
    · rwa [lane, after]
  · have hz : moved.zoneFound = some z := (zoneFound_eq_some hm').mpr (ready credits z hfound)
    refine exec_sendCall (p := moved.spendCredit z) ?_
    rw [selects hfree, freeSelection_found hm' hz hgoes]
  · have hnone : moved.zoneFound = none := (zoneFound_eq_none hm').mpr (idle credits hnone)
    have hz : moved.reloadCredits.zoneFound = some z :=
      (zoneFound_eq_some (p := moved.reloadCredits) hm').mpr (ready weights z hfound)
    refine exec_sendCall (p := moved.reloadCredits.spendCredit z) ?_
    rw [selects hfree, freeSelection_reloaded hm' hnone hz hgoes]
  · have hnone : moved.zoneFound = none := (zoneFound_eq_none hm').mpr (idle credits hnone)
    rw [selects hfree, freeSelection_idle hm' hnone (idle weights hnone')]

end Sys2Proof.Machine

namespace Sys2Proof.Machine

variable {p q : Part} {b : Nat}

/-! ### The pending list of a bay, when a normal entry has left (R84, R85) -/

/-- A pending frame that is still to be posted: not a RETURN, or one of its carriers is RETURNING for the bay (R85). -/
def Part.stillMeant (p : Part) (b : Nat) (x : Post) : Bool :=
  decide (x.payload.headD 0 ≠ 2) || (returnIds x.payload).any (fun c => p.isReturning b c)

theorem not_spent (x : Post) : (!p.spent b x) = p.stillMeant b x := by
  simp [Part.spent, Part.stillMeant, Post.isReturn]

/-- The frames of a pending list that are still meant are posted, as long as there is room for them. -/
theorem postPending_append (front rest : List Post) (p : Part) (hk : ∀ x ∈ front, x.kind = .bayCommand)
    (hroom : p.ring.normal.length + (front.filter (p.stillMeant b)).length ≤ 48) :
    p.postPending b (front ++ rest) =
      (p.modNormal (fun q => q ++ front.filter (p.stillMeant b))).postPending b rest := by
  induction front generalizing p with
  | nil => simp [Part.modNormal]
  | cons x front ih =>
    have hk' := fun y hy => hk y (List.mem_cons_of_mem x hy)
    rw [List.cons_append, Part.postPending]
    cases hs : p.stillMeant b x with
    | false =>
      rw [if_pos (by simpa [hs] using not_spent (p := p) (b := b) x), ih p hk' (by simpa [hs] using hroom)]
      simp [hs]
    | true =>
      simp only [List.filter_cons, hs, if_true, List.length_cons] at hroom
      have hx : x.kind ≠ .steer := by simp [hk x (List.mem_cons_self ..)]
      rw [if_neg (by simpa [hs] using not_spent (p := p) (b := b) x), Part.post_room hx (by omega)]
      have same : (p.posted x).stillMeant b = p.stillMeant b := rfl
      have longer : (p.posted x).ring.normal.length = p.ring.normal.length + 1 := by simp [Part.posted, Part.modNormal]
      simp only
      rw [ih (p.posted x) hk' (by rw [same, longer]; omega), same]
      simp [hs, Part.posted, Part.modNormal]

theorem emptied {y : Build} (h : y.pending = []) : { y with pending := [] } = y := by
  rw [← h]

/-- A pending list that is posted whole leaves none, and the WANTED records follow it. -/
theorem retryBuild_whole (hk : ∀ x ∈ (p.build b).pending, x.kind = .bayCommand)
    (hroom : p.ring.normal.length + ((p.build b).pending.filter (p.stillMeant b)).length ≤ 48) :
    ∃ u : Part, u.Same ((p.modNormal (fun q => q ++ (p.build b).pending.filter (p.stillMeant b))).modBuild b
      (fun y => { y with pending := [] })) ∧ p.retryBuild b = u.postReturns b := by
  by_cases h : (p.build b).pending = []
  · refine ⟨p, ?_, by simp only [Part.retryBuild, h, if_true]⟩
    have posted : p.modNormal (fun q => q ++ (p.build b).pending.filter (p.stillMeant b)) = p := by
      simp [h, Part.modNormal]
    rw [posted]
    exact modBuild_same b (f := fun y => { y with pending := [] }) (emptied h)
  · have posted := postPending_append (p.build b).pending [] p hk hroom
    rw [List.append_nil] at posted
    refine ⟨_, Part.Same.refl _, ?_⟩
    simp only [Part.retryBuild, h, if_false, posted, Part.postPending]
    exact if_pos (by simp)

/-- The first frame that is refused stays at the head of the pending list, and no WANTED record is named. -/
theorem retryBuild_refused {front after : List Post} {x : Post} (hp : (p.build b).pending = front ++ x :: after)
    (hk : ∀ x ∈ (p.build b).pending, x.kind = .bayCommand) (hlive : p.stillMeant b x = true)
    (hfull : p.ring.normal.length + (front.filter (p.stillMeant b)).length = 48) :
    p.retryBuild b = (p.modNormal (fun q => q ++ front.filter (p.stillMeant b))).modBuild b
      (fun y => { y with pending := x :: after }) := by
  have hx : x.kind ≠ .steer := by simp [hk x (by simp [hp])]
  have stop : p.postPending b (front ++ x :: after) =
      (p.modNormal (fun q => q ++ front.filter (p.stillMeant b))).modBuild b
        (fun y => { y with pending := x :: after }) := by
    have meant : (p.modNormal (fun q => q ++ front.filter (p.stillMeant b))).spent b x ≠ true := by
      simpa using (not_spent (p := p.modNormal (fun q => q ++ front.filter (p.stillMeant b))) x).trans hlive
    rw [postPending_append front _ p (fun y hy => hk y (by simp [hp, hy])) hfull.le, Part.postPending,
      if_neg meant, Part.post_full hx (by simp [Part.modNormal, hfull])]
  have hne : (p.build b).pending ≠ [] := by simp [hp]
  simp only [Part.retryBuild, hne, if_false]
  rw [hp, stop]
  exact if_neg (by simp)

/-! ### A held STEP and a notice destination that waits (R182, R195) -/

theorem retryStep_room {x : Post} (h : (p.build b).heldStep = some x) (hk : x.kind = .bayCommand)
    (hroom : p.ring.normal.length < 48) :
    p.retryStep b = (p.posted x).modBuild b
      (fun y => { y with heldStep := none, stepTimer := .running (p.const 3) }) := by
  simp only [Part.retryStep, h, Part.postStep, Part.post_room (show x.kind ≠ .steer by simp [hk]) hroom]
  rfl

theorem retryStep_full {x : Post} (h : (p.build b).heldStep = some x) (hk : x.kind = .bayCommand)
    (hfull : 48 ≤ p.ring.normal.length) : (p.retryStep b).Same p := by
  simp only [Part.retryStep, h, Part.postStep, Part.post_full (show x.kind ≠ .steer by simp [hk]) (not_lt.mpr hfull)]
  refine Part.Same.symm ?_
  exact modBuild_same b (f := fun y => { y with heldStep := some x }) (by rw [← h])

theorem entryLeft_none (hr : p.ring.resetHeld = false) (h : p.ring.left = 0) : p.entryLeft = p := by
  simp [Part.entryLeft, hr, h]

theorem entryLeft_report {n : Nat} (hr : p.ring.resetHeld = false) (h : p.ring.left = n + 1) :
    p.entryLeft = [1, 2, 3, 4].foldl (fun q d => q.retryNotice d)
      ((List.range' 1 64).foldl (fun q b => (q.retryBuild b).retryStep b)
        { p with ring := { p.ring with left := n } }) := by
  rw [Part.entryLeft, if_neg (by simp [hr, h]), h, Part.reportLeft, Config.bays, Config.destinations]
  rfl

/-- Settles O16: by induction on the part of the pending list that is posted. -/
theorem leftEntriesLetHeldFramesPost : Obligations.LeftEntriesLetHeldFramesPost := by
  refine ⟨fun s hr => ⟨fun h => ?_, fun n h => ?_⟩, fun p b front rest hp hk => ⟨fun hrest hroom => ?_,
    fun x after hrest hlive hfull => ?_⟩, fun p b => ⟨fun h => ?_, fun x h hk => ?_⟩,
    fun p d => ⟨fun h => ?_, fun h => ?_⟩⟩
  · exact (exec_normalEntryLeft s).trans (State.onPart_eq (entryLeft_none hr h))
  · rw [← entryLeft_report hr h]
    exact exec_normalEntryLeft s
  · obtain rfl : (p.build b).pending = front := by rw [hp, hrest, List.append_nil]
    exact retryBuild_whole hk hroom
  · rw [retryBuild_refused (hrest ▸ hp) hk hlive hfull, hrest]
    exact Part.Same.refl _
  · simp only [Part.retryStep, h]
  · exact ⟨fun hroom => Part.Same.of_eq (retryStep_room h hk hroom), retryStep_full h hk⟩
  · exact if_neg h
  · rw [Part.retryNotice, if_pos h]
    exact postAttempt_triesToPost d p

end Sys2Proof.Machine

namespace Sys2Proof.Machine

variable {p q t : Part} {b : Nat} {xs ys : List Post} {rs ks : List Nat}

/-! ### The groups of six (R84) -/

theorem sixes_eq {α : Type} (n : Nat) (l : List α) (h : l.length ≤ n) :
    sixes n l = (List.range ((l.length + 5) / 6)).map (fun k => (l.drop (6 * k)).take 6) := by
  induction n generalizing l with
  | zero =>
    obtain rfl := List.eq_nil_of_length_eq_zero (Nat.le_zero.mp h)
    simp [sixes]
  | succ n ih =>
    rw [sixes]
    by_cases hl : l = []
    · subst hl
      simp
    · have hpos : 0 < l.length := List.length_pos_iff.mpr hl
      have hcount : (l.length + 5) / 6 = ((l.drop 6).length + 5) / 6 + 1 := by
        rw [List.length_drop]
        omega
      rw [if_neg (by simpa using hl), ih (l.drop 6) (by rw [List.length_drop]; omega), hcount,
        List.range_succ_eq_map, List.map_cons, List.map_map]
      refine congrArg₂ _ rfl (List.map_congr_left fun k _ => ?_)
      rw [List.drop_drop, Function.comp_apply, Nat.mul_succ, Nat.add_comm]

theorem flatten_sixes {α : Type} (m : Nat) (l : List α) :
    ((List.range m).map (fun k => (l.drop (6 * k)).take 6)).flatten = l.take (6 * m) := by
  induction m with
  | zero => simp
  | succ m ih => simp [List.range_succ, ih, Nat.mul_succ, List.take_add]

/-! ### What RETURN frames leave (R84, R155) -/

/-- A carrier whose record is named by a RETURN frame of its bay is RETURNING (R155). -/
def Part.returnedCarrier (p : Part) (b : Nat) (rs : List Nat) (c : Nat) : Carrier :=
  match (p.carrier c).state with
  | .held a r role =>
    if a = b ∧ r ∈ rs ∧ (p.holdRec r).carrier = c then { p.carrier c with state := .returning b r role }
    else p.carrier c
  | _ => p.carrier c

/-- Frames join the normal queue, the records they name become POSTED, and their carriers RETURNING. -/
structure Part.Returned (b : Nat) (xs : List Post) (rs : List Nat) (p t : Part) : Prop where
  frame : t = { p with
    ring := { p.ring with normal := p.ring.normal ++ xs }
    pool := { p.pool with recs := t.pool.recs }
    carriers := t.carriers }
  rec_ : ∀ r, t.holdRec r = if r ∈ rs then { p.holdRec r with mark := .posted } else p.holdRec r
  carrier : ∀ c, t.carrier c = p.returnedCarrier b rs c

theorem returnedCarrier_of_not_named {c : Nat} (h : ∀ r role, (p.carrier c).state = .held b r role → r ∈ rs →
    (p.holdRec r).carrier ≠ c) : p.returnedCarrier b rs c = p.carrier c := by
  unfold Part.returnedCarrier
  split
  · next a r role hs => exact if_neg fun ⟨ha, hr, hc⟩ => h r role (ha ▸ hs) hr hc
  · rfl

theorem returnedCarrier_of_not_held {c : Nat} (h : ∀ r role, (p.carrier c).state ≠ .held b r role) :
    p.returnedCarrier b rs c = p.carrier c :=
  returnedCarrier_of_not_named fun r role hs => absurd hs (h r role)

theorem returnedCarrier_of_held {c r : Nat} {role : CarrierRole} (h : (p.carrier c).state = .held b r role) :
    p.returnedCarrier b rs c =
      if r ∈ rs ∧ (p.holdRec r).carrier = c then { p.carrier c with state := .returning b r role }
      else p.carrier c := by
  simp [Part.returnedCarrier, h]

theorem Part.Returned.refl (b : Nat) (p : Part) : Part.Returned b [] [] p p where
  frame := by simp
  rec_ _ := by simp
  carrier _ := (returnedCarrier_of_not_named fun _ _ _ hr => absurd hr List.not_mem_nil).symm

theorem Part.Returned.trans (h : Part.Returned b xs rs p q) (h' : Part.Returned b ys ks q t) :
    Part.Returned b (xs ++ ys) (rs ++ ks) p t where
  frame := by
    rw [h'.frame, h.frame]
    simp
  rec_ r := by
    rw [h'.rec_, h.rec_]
    by_cases hk : r ∈ ks <;> by_cases hr : r ∈ rs <;> simp [hk, hr]
  carrier c := by
    have kept : ∀ r, (q.holdRec r).carrier = (p.holdRec r).carrier := fun r => by
      rw [h.rec_]
      split <;> rfl
    rw [h'.carrier]
    have hq := h.carrier c
    by_cases hs : ∃ r role, (p.carrier c).state = .held b r role
    · obtain ⟨r, role, hs⟩ := hs
      rw [returnedCarrier_of_held hs] at hq ⊢
      by_cases hr : r ∈ rs ∧ (p.holdRec r).carrier = c
      · rw [if_pos hr] at hq
        rw [returnedCarrier_of_not_held (by simp [hq]), hq, if_pos ⟨List.mem_append_left _ hr.1, hr.2⟩]
      · rw [if_neg hr] at hq
        rw [returnedCarrier_of_held (hq ▸ hs), kept, hq]
        refine if_congr ?_ rfl rfl
        grind
    · rw [returnedCarrier_of_not_held fun r role h => hs ⟨r, role, h⟩] at hq ⊢
      rw [returnedCarrier_of_not_held fun r role h => hs ⟨r, role, hq ▸ h⟩, hq]

theorem posted_returned (b : Nat) (x : Post) (p : Part) : Part.Returned b [x] [] p (p.posted x) :=
  { Part.Returned.refl b p with frame := rfl }

theorem markPosted_of_held {r : Nat} {role : CarrierRole}
    (h : (p.carrier (p.holdRec r).carrier).state = .held b r role) :
    p.markPosted b r = (p.setRec r { p.holdRec r with mark := .posted }).setCarrier (p.holdRec r).carrier
      { p.carrier (p.holdRec r).carrier with state := .returning b r role } := by
  simp [Part.markPosted, h]

theorem markPosted_of_not_held {r : Nat} (h : ∀ role, (p.carrier (p.holdRec r).carrier).state ≠ .held b r role) :
    p.markPosted b r = p.setRec r { p.holdRec r with mark := .posted } := by
  simp only [Part.markPosted, Part.carrier_setRec]
  split
  · next a k role hs => exact if_neg fun ⟨ha, hk⟩ => h role (ha ▸ hk ▸ hs)
  · rfl

theorem markPosted_returned (b r : Nat) (p : Part) : Part.Returned b [] [r] p (p.markPosted b r) := by
  by_cases h : ∃ role, (p.carrier (p.holdRec r).carrier).state = .held b r role
  · obtain ⟨role, h⟩ := h
    rw [markPosted_of_held h]
    refine ⟨by simp [Part.setRec, Part.setCarrier], fun k => ?_, fun c => ?_⟩
    · by_cases hk : k = r <;> simp [Part.holdRec_setRec, hk]
    · by_cases hc : c = (p.holdRec r).carrier
      · rw [hc, Part.carrier_setCarrier_self, returnedCarrier_of_held h]
        simp
      · rw [Part.carrier_setCarrier_ne _ _ _ hc, Part.carrier_setRec]
        exact (returnedCarrier_of_not_named fun k role _ hk => List.mem_singleton.mp hk ▸ Ne.symm hc).symm
  · rw [markPosted_of_not_held fun role hs => h ⟨role, hs⟩]
    refine ⟨by simp [Part.setRec], fun k => ?_, fun c => ?_⟩
    · by_cases hk : k = r <;> simp [Part.holdRec_setRec, hk]
    · rw [Part.carrier_setRec]
      refine (returnedCarrier_of_not_named fun k role hs hk hc => ?_).symm
      obtain rfl := List.mem_singleton.mp hk
      exact h ⟨role, hc ▸ hs⟩

theorem markPosted_foldl (b : Nat) (rs : List Nat) (p : Part) :
    Part.Returned b [] rs p (rs.foldl (fun q r => q.markPosted b r) p) := by
  induction rs generalizing p with
  | nil => exact .refl b p
  | cons r rs ih => exact (markPosted_returned b r p).trans (ih _)

/-- The RETURN frame of a group of records (R84). -/
def Part.returnFrame (p : Part) (b : Nat) (g : List Nat) : Post :=
  ⟨.bayCommand, (p.bayDir b).bayNode, returnPayload (g.map (fun r => (p.holdRec r).carrier))⟩

theorem Part.Returned.returnFrame (h : Part.Returned b xs rs p t) : t.returnFrame b = p.returnFrame b := by
  have kept : ∀ r, (t.holdRec r).carrier = (p.holdRec r).carrier := fun r => by
    rw [h.rec_]
    split <;> rfl
  have node : t.bayDir b = p.bayDir b := by rw [h.frame]; rfl
  funext g
  simp only [Part.returnFrame, kept, node]

theorem postReturnFrames_room {g : List Nat} {gs : List (List Nat)} (h : p.ring.normal.length < 48) :
    p.postReturnFrames b (g :: gs) =
      (g.foldl (fun q r => q.markPosted b r) (p.posted (p.returnFrame b g))).postReturnFrames b gs := by
  have e : p.post (p.returnFrame b g) = some _ := Part.post_room (by simp [Part.returnFrame]) h
  rw [Part.returnFrame, ← Part.bayCommand] at e
  simp only [Part.postReturnFrames, e]
  rfl

theorem postReturnFrames_full {g : List Nat} {gs : List (List Nat)} (h : ¬ p.ring.normal.length < 48) :
    p.postReturnFrames b (g :: gs) = p := by
  have e : p.post (p.returnFrame b g) = none := Part.post_full (by simp [Part.returnFrame]) h
  rw [Part.returnFrame, ← Part.bayCommand] at e
  simp only [Part.postReturnFrames, e]

/-- As many groups are named as the normal queue has entries for. -/
theorem postReturnFrames_returned (gs : List (List Nat)) (p : Part) :
    Part.Returned b ((gs.take (48 - p.ring.normal.length)).map (p.returnFrame b))
      (gs.take (48 - p.ring.normal.length)).flatten p (p.postReturnFrames b gs) := by
  induction gs generalizing p with
  | nil =>
    rw [List.take_nil]
    exact .refl b p
  | cons g gs ih =>
    by_cases hroom : p.ring.normal.length < 48
    · have one := (posted_returned b (p.returnFrame b g) p).trans (markPosted_foldl b g (p.posted (p.returnFrame b g)))
      have left : 48 - p.ring.normal.length = 48 -
          (g.foldl (fun q r => q.markPosted b r) (p.posted (p.returnFrame b g))).ring.normal.length + 1 := by
        rw [one.frame]
        simp
        omega
      rw [postReturnFrames_room hroom, left, List.take_succ_cons]
      have rest := ih (g.foldl (fun q r => q.markPosted b r) (p.posted (p.returnFrame b g)))
      rw [one.returnFrame] at rest
      exact one.trans rest
    · rw [postReturnFrames_full hroom, show 48 - p.ring.normal.length = 0 by omega]
      exact .refl b p

/-- Settles O17: by induction over the groups of six that fit. -/
theorem wantedRecordsAreReturned : Obligations.WantedRecordsAreReturned := by
  intro p b wanted frames sent frame _
  have all := postReturnFrames_returned (b := b) (sixes wanted.length wanted) p
  have groups : (sixes wanted.length wanted).take (48 - p.ring.normal.length) =
      (List.range frames).map (fun k => (wanted.drop (6 * k)).take 6) := by
    rw [sixes_eq _ _ le_rfl, ← List.map_take, List.take_range]
  rw [groups, List.map_map, flatten_sixes] at all
  exact ⟨_, rfl, all.frame, all.rec_, all.carrier⟩

end Sys2Proof.Machine

namespace Sys2Proof.Machine

variable {pkt : Packet} {p : Part} {t : TableId}

/-! ### The tables by their identifiers (Table 2-1) -/

/-- The identifier of a table (Table 2-1). -/
def TableId.code : TableId → Nat
  | .articleMap => 1
  | .groups => 2
  | .laneDirectory => 3
  | .archMap => 4
  | .bayTable => 5
  | .hallConstants => 6
  | .tares => 7
  | .calendar => 8
  | .zoneWeights => 9
  | .styles => 10
  | .stepStore => 11
  | .routing => 12
  | .destinations => 13
  | .managers => 14

@[simp] theorem TableId.ofCode_code (t : TableId) : TableId.ofCode t.code = some t := by cases t <;> rfl

theorem TableId.ofCode_eq_none {k : Nat} (h : k = 0 ∨ 14 < k) : TableId.ofCode k = none := by
  unfold TableId.ofCode
  split <;> first | omega | rfl

/-- A row of the ranges is the row of a table. -/
theorem TableId.of_indexRanges {k lo hi : Nat} (hk : k ≠ 0) (h : indexRanges[k - 1]? = some (lo, hi)) :
    ∃ t : TableId, k = t.code ∧ t.range = (lo, hi) := by
  have named : ∀ n < 14, ∃ t : TableId, n + 1 = t.code ∧ indexRanges[n]? = some t.range := by
    intro n hn
    interval_cases n
    exacts [⟨.articleMap, rfl, rfl⟩, ⟨.groups, rfl, rfl⟩, ⟨.laneDirectory, rfl, rfl⟩, ⟨.archMap, rfl, rfl⟩,
      ⟨.bayTable, rfl, rfl⟩, ⟨.hallConstants, rfl, rfl⟩, ⟨.tares, rfl, rfl⟩, ⟨.calendar, rfl, rfl⟩,
      ⟨.zoneWeights, rfl, rfl⟩, ⟨.styles, rfl, rfl⟩, ⟨.stepStore, rfl, rfl⟩, ⟨.routing, rfl, rfl⟩,
      ⟨.destinations, rfl, rfl⟩, ⟨.managers, rfl, rfl⟩]
  obtain ⟨hlt, -⟩ := List.getElem?_eq_some_iff.mp h
  obtain ⟨t, ht, hr⟩ := named (k - 1) hlt
  exact ⟨t, by omega, Option.some.inj (hr.symm.trans h)⟩

theorem tableNamed_badTable (h : pkt.u8 8 = 0 ∨ 14 < pkt.u8 8) : tableNamed pkt = .error .badTable := by
  simp only [tableNamed, TableId.ofCode_eq_none h]

theorem tableNamed_badIndex (hk : pkt.u8 8 = t.code) (h : pkt.u16 9 < t.range.1 ∨ t.range.2 < pkt.u16 9) :
    tableNamed pkt = .error .badIndex := by
  have hr : t.inRange (pkt.u16 9) = false := by
    simp only [TableId.inRange, Bool.and_eq_false_iff, decide_eq_false_iff_not]
    omega
  simp [tableNamed, hk, hr]

theorem tableNamed_ok (hk : pkt.u8 8 = t.code) (hlo : t.range.1 ≤ pkt.u16 9) (hhi : pkt.u16 9 ≤ t.range.2) :
    tableNamed pkt = .ok (t, pkt.u16 9) := by
  simp [tableNamed, hk, TableId.inRange, hlo, hhi]

/-! ### The layouts of a read (section 2.11) -/

theorem flatMap_range' {α : Type} (f : Nat → List α) (start n : Nat) :
    ((List.range' start n).map f).flatten = (List.range n).flatMap (fun j => f (start + j)) := by
  rw [List.range'_eq_map_range, List.map_map]
  rfl

theorem bFlag_decide (c : Prop) [Decidable c] : bFlag (decide c) = b8 (if c then 1 else 0) := by
  by_cases h : c <;> simp [bFlag, h]

theorem bFlag_not_decide (c : Prop) [Decidable c] : bFlag (decide (¬ c)) = b8 (if c then 0 else 1) := by
  by_cases h : c <;> simp [bFlag, h]

/-! ### The layouts of the order and build replies (Tables 3-1 and 5-2) -/

/-- A mask of flags is the sum of the powers of its flags. -/
theorem flagByte_range (n : Nat) (f : Nat → Bool) :
    flagByte ((List.range n).map f) = ((List.range n).map (fun i => if f i then 2 ^ i else 0)).sum := by
  induction n generalizing f with
  | zero => rfl
  | succ n ih =>
    have tail : flagByte ((List.range n).map (f ∘ Nat.succ)) = _ := ih (f ∘ Nat.succ)
    have head : ∀ (b : Bool) l, flagByte (b :: l) = (if b then 1 else 0) + 2 * flagByte l := fun _ _ => rfl
    rw [List.range_succ_eq_map, List.map_cons, List.map_map, List.map_cons, List.map_map, head, tail, List.sum_cons,
      ← List.sum_map_mul_left]
    simp [Function.comp_def, Nat.pow_succ, mul_comm]

/-! ### The reads and their checks (R28, R62, R112) -/

theorem tableRead_refused {e : Status} (h : tableNamed pkt = .error e) : tableRead pkt p = refuse e p := by
  simp only [tableRead, h]

theorem tableRead_ok {i : Nat} (h : tableNamed pkt = .ok (t, i)) :
    tableRead pkt p = accept (p.readData (pkt.u8 8) t i) p := by
  simp only [tableRead, h]

theorem orderRead_unknown (h : p.order? (pkt.u32 8) = none) : orderRead pkt p = refuse .unknownOrder p := by
  simp only [orderRead, orderNumber, h]

section OrderRead

variable {o : Order} (ho : p.order? (pkt.u32 8) = some o)
include ho

theorem orderRead_header (h : pkt.u8 12 = 255) : orderRead pkt p = accept o.headerBytes p := by
  simp only [orderRead, orderNumber, ho, h, if_true]

theorem orderRead_badIndex (h : pkt.u8 12 ≠ 255)
    (hi : 15 < pkt.u8 12 ∨ o.declared ≤ pkt.u8 12 ∨ Map.find? o.lines (pkt.u8 12) = none) :
    orderRead pkt p = refuse .badIndex p := by
  simp only [orderRead, orderNumber, ho, h, if_false]
  by_cases hi' : 15 < pkt.u8 12 ∨ o.declared ≤ pkt.u8 12
  · exact if_pos hi'
  · have hnone := (or_assoc.mpr hi).resolve_left hi'
    simp only [if_neg hi', hnone]

theorem orderRead_line {l : Line} (h : pkt.u8 12 ≤ 15) (hd : pkt.u8 12 < o.declared)
    (hl : Map.find? o.lines (pkt.u8 12) = some l) : orderRead pkt p = accept (l.bytes (pkt.u8 12)) p := by
  have h255 : pkt.u8 12 ≠ 255 := by omega
  have hi : ¬ (15 < pkt.u8 12 ∨ o.declared ≤ pkt.u8 12) := by omega
  simp only [orderRead, orderNumber, ho, h255, hi, if_false, hl]

end OrderRead

theorem buildRead_badIndex (h : 64 < bayNumber pkt ∨ (bayNumber pkt = 0 ∧ pkt.u8 9 ≠ 255) ∨
    (pkt.u8 9 < 254 ∧ (31 < pkt.u8 9 ∨ (p.build (bayNumber pkt)).hold.length ≤ pkt.u8 9))) :
    buildRead pkt p = refuse .badIndex p := by
  simp only [buildRead]
  split
  · rfl
  · split
    · rw [if_neg (by omega)]
    · rw [if_neg (by omega), if_neg (by omega), if_pos (by omega)]

theorem buildRead_pool (hb : bayNumber pkt = 0) (hs : pkt.u8 9 = 255) : buildRead pkt p = accept p.poolBytes p := by
  simp [buildRead, hb, hs]

section BuildRead

variable (hb : 1 ≤ bayNumber pkt) (hb' : bayNumber pkt ≤ 64)
include hb hb'

theorem buildRead_context (hs : pkt.u8 9 = 255) : buildRead pkt p = accept (p.contextBytes (bayNumber pkt)) p := by
  simp only [buildRead]
  rw [if_neg (by omega), if_neg (by omega), if_pos hs]

theorem buildRead_finish (hs : pkt.u8 9 = 254) : buildRead pkt p = accept (p.finishBytes (bayNumber pkt)) p := by
  simp only [buildRead]
  rw [if_neg (by omega), if_neg (by omega), if_neg (by omega), if_pos hs]

theorem buildRead_record (hs : pkt.u8 9 ≤ 31) (hl : pkt.u8 9 < (p.build (bayNumber pkt)).hold.length) :
    buildRead pkt p = accept (p.holdBytes (bayNumber pkt) (pkt.u8 9)) p := by
  simp only [buildRead]
  rw [if_neg (by omega), if_neg (by omega), if_neg (by omega), if_neg (by omega), if_neg (by omega)]

end BuildRead

/-- Settles O20: each read makes its checks and replies the bytes of what stands. -/
theorem readsReplyAndChangeNothing : Obligations.ReadsReplyAndChangeNothing := by
  unfold Obligations.ReadsReplyAndChangeNothing
  intro flag left header line zone step article lane bay route entry context finish record pool
  have zones : ∀ z, zone z = z.code := fun z => by cases z <;> rfl
  have steps : ∀ x, step x = x.bytes := fun x => by cases x <;> rfl
  have articles : ∀ x, article x = x.bytes := fun x => by simp only [article, zones]; rfl
  have tables : ∀ p (t : TableId) i, entry p t.code i = p.readEntry t i := by
    intro p t i
    cases t
    case articleMap => exact articles _
    case laneDirectory => simp only [entry, TableId.code, lane, zones]; rfl
    case archMap => exact congrArg _ (bFlag_decide (p.tables.lapArch = i)).symm
    case bayTable => exact congrArg (_ ++ ·) (bFlag_not_decide ((p.build i).state = .outOfService)).symm
    case calendar => exact (flatMap_range' (fun j => b8 (p.calendarEntry j)) (16 * i) 16).symm
    case stepStore =>
      simp only [entry, TableId.code, steps]
      exact (flatMap_range' (fun j => (p.step j).bytes) (4 * i) 4).symm
    all_goals rfl
  have headers : ∀ o, header o = o.headerBytes := fun o => by
    have mask := flagByte_range 16 (fun i => (Map.find? o.lines i).isSome)
    simp only [header, ← mask]
    rfl
  have lines : ∀ i l, line i l = l.bytes i := fun i l => rfl
  have contexts : ∀ (p : Part) b, context (p.build b) = p.contextBytes b := fun p b => by
    refine congrArg₂ (· ++ ·) (congrArg₂ (· ++ ·) rfl (congrArg b8 ?_)) rfl
    rw [Build.flags]
    cases (p.build b).dwell <;> simp only [flag, flagByte, List.foldr_cons, List.foldr_nil, Timer.isRunning] <;> grind
  have finishes : ∀ (p : Part) b, finish p b = p.finishBytes b := fun p b => by
    have style : p.styleAt b = match p.order? (p.build b).order with | some o => o.style | none => 0 := by
      rw [Part.styleAt, Part.orderAt]
      cases p.order? (p.build b).order <;> rfl
    rw [Part.finishBytes, style]
    rfl
  have records : ∀ (p : Part) b i, record p b i = p.holdBytes b i := fun p b i => by
    simp only [record, Part.holdBytes]
    generalize p.holdRec ((p.build b).hold.getD i 0) = x
    have role : bFlag (!x.isLine) = b8 (match x.role with | .line _ => 0 | .foreign => 1) := by
      rw [HoldRecord.isLine]
      cases x.role <;> rfl
    have flags : x.flags = flag x.verified + 2 * flag x.chilled + 4 * flag x.chillExpired := by
      simp only [flag, HoldRecord.flags, flagByte, List.foldr_cons, List.foldr_nil]
      omega
    rw [role, flags]
    rfl
  have pools : ∀ p, pool p = p.poolBytes := fun p => rfl
  refine ⟨fun s pkt h => ⟨fun hk => ?_, fun lo hi hk hr => ?_⟩, fun s pkt h => ⟨fun ho => ?_, fun o ho => ⟨fun hs => ?_,
    fun hs hi => ?_, fun l hs hd hl => ?_⟩⟩, fun s pkt h => ⟨fun hi => ?_, fun hb hs => ?_, fun hb hb' => ⟨fun hs => ?_,
    fun hs => ?_, fun hs hl => ?_⟩⟩⟩
  · exact exec_request_unchanged (exec_tableRead pkt) h (tableRead_refused (tableNamed_badTable hk))
  · obtain ⟨t, ht, htr⟩ := TableId.of_indexRanges hk hr
    have hlo : t.range.1 = lo := by rw [htr]
    have hhi : t.range.2 = hi := by rw [htr]
    subst hlo hhi
    refine ⟨fun hi => ?_, fun hlo hhi => ?_⟩
    · exact exec_request_unchanged (exec_tableRead pkt) h (tableRead_refused (tableNamed_badIndex ht hi))
    · rw [show entry s.part (pkt.u8 8) (pkt.u16 9) = s.part.readEntry t (pkt.u16 9) by rw [ht, tables]]
      exact exec_request_unchanged (exec_tableRead pkt) h (tableRead_ok (tableNamed_ok ht hlo hhi))
  · exact exec_request_unchanged (exec_orderRead pkt) h (orderRead_unknown ho)
  · rw [headers]
    exact exec_request_unchanged (exec_orderRead pkt) h (orderRead_header ho hs)
  · exact exec_request_unchanged (exec_orderRead pkt) h (orderRead_badIndex ho hs hi)
  · rw [lines]
    exact exec_request_unchanged (exec_orderRead pkt) h (orderRead_line (by exact ho) hs hd hl)
  · exact exec_request_unchanged (exec_buildRead pkt) h (buildRead_badIndex hi)
  · exact exec_request_unchanged (exec_buildRead pkt) h (buildRead_pool hb hs)
  · rw [contexts]
    exact exec_request_unchanged (exec_buildRead pkt) h (buildRead_context hb hb' hs)
  · rw [finishes]
    exact exec_request_unchanged (exec_buildRead pkt) h (buildRead_finish hb hb' hs)
  · rw [records]
    exact exec_request_unchanged (exec_buildRead pkt) h (buildRead_record hb hb' hs hl)

end Sys2Proof.Machine

namespace Sys2Proof.Machine

variable {pkt : Packet} {p q : Part} {t : TableId} {i : Nat} {e : Status}

/-! ### The checks of TABLE_WRITE in their order (R27) -/

theorem tableWrite_refused (h : tableNamed pkt = .error e) : tableWrite pkt p = refuse e p := by
  simp only [tableWrite, h]

theorem tableWrite_articleZero (h : tableNamed pkt = .ok (.articleMap, 0)) : tableWrite pkt p = refuse .badValue p := by
  simp [tableWrite, h]

section Named

variable (h : tableNamed pkt = .ok (t, i)) (h0 : ¬ (t = .articleMap ∧ i = 0))
include h h0

theorem tableWrite_barred (hbar : p.writeBar t i = some e) : tableWrite pkt p = refuse e p := by
  simp only [tableWrite, h, if_neg h0, hbar]

theorem tableWrite_badValue (hbar : p.writeBar t i = none) (hs : p.storeEntry t i pkt = none) :
    tableWrite pkt p = refuse .badValue p := by
  simp only [tableWrite, h, if_neg h0, hbar, hs]

theorem tableWrite_stored (hbar : p.writeBar t i = none) (hs : p.storeEntry t i pkt = some q) :
    tableWrite pkt p = accept (q.readData (pkt.u8 8) t i) q := by
  simp only [tableWrite, h, if_neg h0, hbar, hs]

end Named

theorem tableNamed_ne_ok : tableNamed pkt ≠ .error .ok := by
  unfold tableNamed
  split
  · simp
  · split <;> simp

theorem writeBar_ne_ok : p.writeBar t i ≠ some .ok := by
  unfold Part.writeBar
  split <;> dsimp only <;> split <;> simp

/-- What an accepted write answers: the entry it names, as it reads in the part after it. -/
theorem tableWrite_accepted (h : (tableWrite pkt p).status = .ok) : ∃ t i q, tableNamed pkt = .ok (t, i) ∧
    tableWrite pkt p = accept (q.readData (pkt.u8 8) t i) q := by
  cases hn : tableNamed pkt with
  | error e =>
    rw [tableWrite_refused hn] at h
    obtain rfl : e = .ok := h
    exact absurd hn tableNamed_ne_ok
  | ok x =>
    obtain ⟨t, i⟩ := x
    by_cases h0 : t = .articleMap ∧ i = 0
    · obtain ⟨rfl, rfl⟩ := h0
      rw [tableWrite_articleZero hn] at h
      cases h
    cases hbar : p.writeBar t i with
    | some e =>
      rw [tableWrite_barred hn h0 hbar] at h
      obtain rfl : e = .ok := h
      exact absurd hbar writeBar_ne_ok
    | none =>
      cases hs : p.storeEntry t i pkt with
      | none =>
        rw [tableWrite_badValue hn h0 hbar hs] at h
        cases h
      | some q => exact ⟨t, i, q, rfl, tableWrite_stored hn h0 hbar hs⟩

/-! ### When an entry may not be written (R29) -/

theorem writeBar_config (hm : p.mode ≠ .config) (ht : t = .articleMap ∨ t = .groups ∨ t = .archMap ∨ t = .tares) :
    p.writeBar t i = some .badState := by
  rcases ht with rfl | rfl | rfl | rfl <;> exact if_neg hm

theorem writeBar_laneDirectory (h : (p.lane i).online = true) : p.writeBar .laneDirectory i = some .inUse := if_pos h

theorem writeBar_bayTable (h : (p.build i).state ≠ .outOfService) : p.writeBar .bayTable i = some .inUse := if_neg h

theorem writeBar_styles (h : p.useCount i ≠ 0) : p.writeBar .styles i = some .inUse := if_neg h

theorem stepsInUse_iff : (List.range' (4 * i) 4).any p.stepInUse = true ↔
    ∃ k y, k < 4 ∧ 1 ≤ y ∧ y ≤ 63 ∧ 0 < p.useCount y ∧ p.inFinishList y (4 * i + k) = true := by
  simp only [List.any_eq_true, List.mem_range'_1, Part.stepInUse, Config.styles, Bool.and_eq_true, decide_eq_true_eq]
  constructor
  · rintro ⟨x, ⟨hlo, hhi⟩, y, ⟨h₁, h₂⟩, hu, hf⟩
    exact ⟨x - 4 * i, y, by omega, h₁, by omega, hu, by rwa [Nat.add_sub_cancel' hlo]⟩
  · rintro ⟨k, y, hk, h₁, h₂, hu, hf⟩
    exact ⟨4 * i + k, ⟨by omega, by omega⟩, y, ⟨h₁, by omega⟩, hu, hf⟩

theorem writeBar_stepStore (h : (List.range' (4 * i) 4).any p.stepInUse = true) :
    p.writeBar .stepStore i = some .inUse := if_pos h

/-- Settles O23: each check refuses, and the reply is read from the part after the write. -/
theorem tableWritesAreCheckedAndShown : Obligations.TableWritesAreCheckedAndShown := by
  refine ⟨fun s pkt h => ⟨fun hk => ?_, fun lo hi hk hr hi => ?_, fun hk hi => ?_, fun hk hm => ?_, fun hk => ?_⟩,
    fun pkt p hok => ?_⟩
  · exact exec_request_unchanged (exec_tableWrite pkt) h (tableWrite_refused (tableNamed_badTable hk))
  · obtain ⟨t, ht, htr⟩ := TableId.of_indexRanges hk hr
    exact exec_request_unchanged (exec_tableWrite pkt) h
      (tableWrite_refused (tableNamed_badIndex ht (by rw [htr]; exact hi)))
  · have named := tableNamed_ok (t := .articleMap) hk (Nat.zero_le _) (by rw [hi]; exact Nat.zero_le _)
    rw [hi] at named
    exact exec_request_unchanged (exec_tableWrite pkt) h (tableWrite_articleZero named)
  · have barred : ∀ t : TableId, pkt.u8 8 = t.code → t.range.1 ≤ pkt.u16 9 → pkt.u16 9 ≤ t.range.2 →
        ¬ (t = .articleMap ∧ pkt.u16 9 = 0) → (t = .articleMap ∨ t = .groups ∨ t = .archMap ∨ t = .tares) →
        exec (.tableWrite pkt) s = .next { s with part := s.part.replied pkt .badState [] } :=
      fun t ht hlo hhi h0 hc => exec_request_unchanged (exec_tableWrite pkt) h
        (tableWrite_barred (tableNamed_ok ht hlo hhi) h0 (writeBar_config hm hc))
    rcases hk with ⟨hk, h₁, h₂⟩ | ⟨hk, h₁, h₂⟩ | ⟨hk, h₁, h₂⟩ | ⟨hk, h₂⟩
    · exact barred .articleMap hk (Nat.zero_le _) h₂ (by omega) (.inl rfl)
    · exact barred .groups hk h₁ h₂ (by simp) (.inr (.inl rfl))
    · exact barred .archMap hk h₁ h₂ (by simp) (.inr (.inr (.inl rfl)))
    · exact barred .tares hk (Nat.zero_le _) h₂ (by simp) (.inr (.inr (.inr rfl)))
  · have barred : ∀ t : TableId, pkt.u8 8 = t.code → t.range.1 ≤ pkt.u16 9 → pkt.u16 9 ≤ t.range.2 → t ≠ .articleMap →
        (s.part.replied pkt .ok []).writeBar t (pkt.u16 9) = some .inUse →
        exec (.tableWrite pkt) s = .next { s with part := s.part.replied pkt .inUse [] } :=
      fun t ht hlo hhi h0 hbar => exec_request_unchanged (exec_tableWrite pkt) h
        (tableWrite_barred (tableNamed_ok ht hlo hhi) (fun h => h0 h.1) hbar)
    rcases hk with ⟨hk, h₁, h₂, hu⟩ | ⟨hk, h₁, h₂, hu⟩ | ⟨hk, h₁, h₂, hu⟩ | ⟨hk, h₂, hu⟩
    · exact barred .laneDirectory hk h₁ h₂ (by simp) (writeBar_laneDirectory hu)
    · exact barred .bayTable hk h₁ h₂ (by simp) (writeBar_bayTable hu)
    · exact barred .styles hk h₁ h₂ (by simp) (writeBar_styles hu)
    · exact barred .stepStore hk (Nat.zero_le _) h₂ (by simp) (writeBar_stepStore (stepsInUse_iff.mpr hu))
  · obtain ⟨t, i, q, hn, hw⟩ := tableWrite_accepted hok
    rw [hw, part_accept, tableRead_ok hn]
    exact ⟨rfl, rfl⟩

end Sys2Proof.Machine

namespace Sys2Proof.Machine

variable {pkt : Packet} {p q : Part} {s : State} {t : TableId} {i : Nat} {z : Zone}

@[simp] theorem lane_modTables (f : Tables → Tables) (p : Part) (l : Nat) : (p.modTables f).lane l = p.lane l := rfl
@[simp] theorem build_modTables (f : Tables → Tables) (p : Part) (b : Nat) : (p.modTables f).build b = p.build b := rfl

/-! ### A write that is stored, and one that is meaningless (R27) -/

/-- A TABLE_WRITE that names an entry of a table that can be written: its identifier and an index in the range, index 0
of the Article Map excepted (R27 checks 1 and 2). -/
structure NamesEntry (pkt : Packet) (t : TableId) : Prop where
  code : pkt.u8 8 = t.code
  low : t.range.1 ≤ pkt.u16 9
  high : pkt.u16 9 ≤ t.range.2
  written : t = .articleMap → pkt.u16 9 ≠ 0

theorem NamesEntry.named (h : NamesEntry pkt t) : tableNamed pkt = .ok (t, pkt.u16 9) :=
  tableNamed_ok h.code h.low h.high

theorem NamesEntry.not_articleZero (h : NamesEntry pkt t) : ¬ (t = .articleMap ∧ pkt.u16 9 = 0) :=
  fun ⟨ht, hi⟩ => h.written ht hi

theorem namesEntry_articleMap (hk : pkt.u8 8 = 1) (h₁ : 1 ≤ pkt.u16 9) (h₂ : pkt.u16 9 ≤ 8191) :
    NamesEntry pkt .articleMap := ⟨hk, Nat.zero_le _, h₂, fun _ => by omega⟩

theorem namesEntry (hk : pkt.u8 8 = t.code) (h₁ : t.range.1 ≤ pkt.u16 9) (h₂ : pkt.u16 9 ≤ t.range.2)
    (h : t ≠ .articleMap) : NamesEntry pkt t := ⟨hk, h₁, h₂, fun ht => absurd ht h⟩

section Writes

variable (h : s.part.receivesRequest .tableWrite pkt) (hn : NamesEntry pkt t)
  (hbar : s.part.writeBar t (pkt.u16 9) = none)
include h hn hbar

/-- A write with a meaningless field changes nothing (R27 check 4). -/
theorem exec_tableWrite_meaningless (hs : (s.part.replied pkt .ok []).storeEntry t (pkt.u16 9) pkt = none) :
    exec (.tableWrite pkt) s = .next { s with part := s.part.replied pkt .badValue [] } :=
  exec_request_unchanged (exec_tableWrite pkt) h (tableWrite_badValue hn.named hn.not_articleZero hbar hs)

/-- A write that changes the Hall Tables alone: they change, and the reply reads the entry after it. -/
theorem exec_tableWrite_stored {f : Tables → Tables} {entry : List Byte}
    (hs : (s.part.replied pkt .ok []).storeEntry t (pkt.u16 9) pkt = some ((s.part.replied pkt .ok []).modTables f))
    (hd : (s.part.modTables f).readEntry t (pkt.u16 9) = entry) :
    exec (.tableWrite pkt) s = .next { s with part :=
      { s.part with tables := f s.part.tables }.replied pkt .ok (b8 (pkt.u8 8) ++ b16 (pkt.u16 9) ++ entry) } := by
  have stored := tableWrite_stored hn.named hn.not_articleZero (by exact hbar) hs
  subst hd
  exact exec_request_changed (q := s.part.modTables f) (exec_tableWrite pkt) h rfl stored

end Writes

theorem writeBar_config_none (hm : p.mode = .config) (ht : t = .articleMap ∨ t = .groups ∨ t = .archMap ∨ t = .tares) :
    p.writeBar t i = none := by
  rcases ht with rfl | rfl | rfl | rfl <;> exact if_pos hm

/-! ### Fields -/

theorem Zone.ofCode_eq_none {n : Nat} (h : 3 < n) : Zone.ofCode n = none := by
  unfold Zone.ofCode
  split <;> first | omega | rfl

theorem Zone.code_of_ofCode {n : Nat} (h : Zone.ofCode n = some z) : z.code = n := by
  unfold Zone.ofCode at h
  split at h <;> first | (cases h; rfl) | cases h

theorem b8_u8 (j : Nat) : b8 (pkt.u8 j) = [pkt.byte j] := by simp [b8, Packet.u8]

/-! ### Article Map entries (R32) -/

theorem articleEntry_meaningless (h : 1 < pkt.u8 11 ∨
    (pkt.u8 11 = 1 ∧ (3 < pkt.u8 12 ∨ pkt.u16 13 = 0 ∨ 127 < pkt.u8 17))) : articleEntry pkt = none := by
  rcases h with h | ⟨h, hz⟩
  · simp only [articleEntry, flagOf_of_gt h]
  · have hf : flagOf (pkt.u8 11) = some true := by rw [h]; rfl
    by_cases hz' : 3 < pkt.u8 12
    · simp only [articleEntry, hf, Zone.ofCode_eq_none hz']
    · cases hzone : Zone.ofCode (pkt.u8 12) with
      | none => simp only [articleEntry, hf, hzone]
      | some z => simp only [articleEntry, hf, hzone, if_pos (hz.resolve_left hz')]

theorem articleEntry_invalid (h : pkt.u8 11 = 0) : articleEntry pkt = some {} := by
  simp [articleEntry, h, flagOf]

theorem articleEntry_valid (h : pkt.u8 11 = 1) (hz : Zone.ofCode (pkt.u8 12) = some z) (hn : pkt.u16 13 ≠ 0)
    (hg : pkt.u8 17 ≤ 127) : articleEntry pkt = some
      { valid := true, zone := z, nominal := min 30000 (pkt.u16 13), tolerance := min 15 (pkt.u8 15),
        homeLane := pkt.u8 16, group := pkt.u8 17 } := by
  simp [articleEntry, h, hz, flagOf, hn, Nat.not_lt.mpr hg]

theorem storeEntry_articleMap {e : Article} (h : articleEntry pkt = some e) :
    p.storeEntry .articleMap i pkt =
      some (p.modTables (fun x => { x with articles := Map.set {} x.articles i e })) := by
  simp only [Part.storeEntry, h, Option.map_some]

theorem article_modTables (e : Article) (p : Part) (i : Nat) :
    (p.modTables (fun x => { x with articles := Map.set {} x.articles i e })).article i = e :=
  Map.get_set_self ({} : Article) p.tables.articles i e

/-! ### Substitution groups (R34) -/

theorem groupEntry_meaningless (h : (∃ m ∈ (pkt.ids 11 8).takeWhile (· ≠ 0), 8191 < m) ∨
    ¬ ((pkt.ids 11 8).takeWhile (· ≠ 0)).Nodup) : groupEntry pkt = none := by
  refine if_neg ?_
  rw [Bool.and_eq_true, List.all_eq_true, decide_eq_true_eq]
  rintro ⟨hall, hnodup⟩
  rcases h with ⟨m, hm, hlt⟩ | h
  · have hle := of_decide_eq_true (hall m hm)
    omega
  · exact h hnodup

theorem groupEntry_some (h : ∀ m ∈ (pkt.ids 11 8).takeWhile (· ≠ 0), m ≤ 8191)
    (hn : ((pkt.ids 11 8).takeWhile (· ≠ 0)).Nodup) : groupEntry pkt = some ((pkt.ids 11 8).takeWhile (· ≠ 0)) := by
  refine if_pos ?_
  rw [Bool.and_eq_true, List.all_eq_true, decide_eq_true_eq]
  exact ⟨fun m hm => decide_eq_true (h m hm), hn⟩

theorem storeEntry_groups {e : List Nat} (h : groupEntry pkt = some e) :
    p.storeEntry .groups i pkt = some (p.modTables (fun x => { x with groups := Map.set [] x.groups i e })) := by
  simp only [Part.storeEntry, h, Option.map_some]

theorem group_modTables (e : List Nat) (p : Part) (i : Nat) :
    (p.modTables (fun x => { x with groups := Map.set [] x.groups i e })).group i = e :=
  Map.get_set_self [] p.tables.groups i e

/-! ### Lane Directory entries (R36) -/

theorem laneEntry_meaningless (h : 1023 ≤ pkt.u16 11 ∨ 3 < pkt.u8 13 ∨ 1 < pkt.u8 15) : laneEntry pkt = none := by
  unfold laneEntry
  split
  · next z f hz hf =>
    refine if_pos (h.resolve_right ?_)
    rintro (hlt | hlt)
    · rw [Zone.ofCode_eq_none hlt] at hz
      cases hz
    · rw [flagOf_of_gt hlt] at hf
      cases hf
  · rfl

theorem laneEntry_some (hn : pkt.u16 11 < 1023) (hz : Zone.ofCode (pkt.u8 13) = some z) (hf : pkt.u8 15 ≤ 1) :
    laneEntry pkt = some
      { node := pkt.u16 11, zone := z, burst := max 1 (min 4 (pkt.u8 14)), configured := decide (pkt.u8 15 = 1) } := by
  simp [laneEntry, hz, flagOf_of_le hf, Nat.not_le.mpr hn, clamp_eq]

theorem storeEntry_laneDirectory {e : LaneDir} (h : laneEntry pkt = some e) :
    p.storeEntry .laneDirectory i pkt =
      some (p.modTables (fun x => { x with laneDir := Map.set {} x.laneDir i e })) := by
  simp only [Part.storeEntry, h, Option.map_some]

theorem laneDir_modTables (e : LaneDir) (p : Part) (i : Nat) :
    (p.modTables (fun x => { x with laneDir := Map.set {} x.laneDir i e })).laneDir i = e :=
  Map.get_set_self ({} : LaneDir) p.tables.laneDir i e

/-! ### Arch Map entries (R38) -/

theorem archEntry_meaningless (h : 1 < pkt.u8 11 ∨ 1 < pkt.u8 12) : archEntry pkt = none := by
  unfold archEntry
  split
  · next f g hf hg =>
    rcases h with h | h
    · rw [flagOf_of_gt h] at hf
      cases hf
    · rw [flagOf_of_gt h] at hg
      cases hg
  · rfl

theorem archEntry_some (h : pkt.u8 11 ≤ 1) (h' : pkt.u8 12 ≤ 1) :
    archEntry pkt = some (decide (pkt.u8 11 = 1), decide (pkt.u8 12 = 1)) := by
  simp only [archEntry, flagOf_of_le h, flagOf_of_le h']

theorem storeEntry_archMap (h : pkt.u8 11 ≤ 1) (h' : pkt.u8 12 ≤ 1) :
    p.storeEntry .archMap i pkt = some (p.modTables (fun x => { x with
      scales := Map.set false x.scales i (decide (pkt.u8 11 = 1))
      lapArch := if pkt.u8 12 = 1 then i else if x.lapArch = i then 0 else x.lapArch })) := by
  simp [Part.storeEntry, archEntry_some h h', lapMark]

/-- The lap arch after a write shows the flag that was written. -/
theorem lapArch_written {present : Nat} {c : Prop} [Decidable c] (hi : i ≠ 0) :
    ((if c then i else if present = i then 0 else present) = i) = c := by
  by_cases hc : c
  · simp [hc]
  · rw [if_neg hc, eq_iff_iff, iff_false_right hc]
    split <;> omega

/-- An Arch Map entry reads as it was written. -/
theorem readEntry_archMap (h : pkt.u8 11 ≤ 1) (h' : pkt.u8 12 ≤ 1) (hi : i ≠ 0) :
    (p.modTables (fun x => { x with
      scales := Map.set false x.scales i (decide (pkt.u8 11 = 1))
      lapArch := if pkt.u8 12 = 1 then i else if x.lapArch = i then 0 else x.lapArch })).readEntry .archMap i =
      b8 (pkt.u8 11) ++ b8 (pkt.u8 12) := by
  simp only [Part.readEntry, Part.scale, Part.modTables, Map.get_set_self, lapArch_written hi, bFlag_of_le h,
    bFlag_of_le h']

/-! ### Bay Table entries (R39, R40) -/

theorem nodeHeld_iff {b node : Nat} : p.nodeHeld b node = true ↔
    ∃ a, 1 ≤ a ∧ a ≤ 64 ∧ a ≠ b ∧ node ≠ 0 ∧ (p.bayDir a).bayNode = node := by
  simp only [Part.nodeHeld, Config.bays, Bool.and_eq_true, decide_eq_true_eq, List.any_eq_true, List.mem_range'_1]
  constructor
  · rintro ⟨hne, a, ⟨h₁, h₂⟩, ha, hnode⟩
    exact ⟨a, h₁, by omega, ha, hne, hnode⟩
  · rintro ⟨a, h₁, h₂, ha, hne, hnode⟩
    exact ⟨hne, a, ⟨h₁, by omega⟩, ha, hnode⟩

theorem storeEntry_bayTable_meaningless (h : 1023 ≤ pkt.u16 11 ∨ 1023 ≤ pkt.u16 13 ∨ 16 ≤ pkt.u8 17 ∨
    ∃ b, 1 ≤ b ∧ b ≤ 64 ∧ b ≠ i ∧ pkt.u16 13 ≠ 0 ∧ (p.bayDir b).bayNode = pkt.u16 13) :
    p.storeEntry .bayTable i pkt = none := by
  by_cases hf : 1023 ≤ pkt.u16 11 ∨ 1023 ≤ pkt.u16 13 ∨ 16 ≤ pkt.u8 17
  · simp only [Part.storeEntry, bayEntry, if_pos hf, Option.bind_none]
  · have taken : ∃ b, 1 ≤ b ∧ b ≤ 64 ∧ b ≠ i ∧ pkt.u16 13 ≠ 0 ∧ (p.bayDir b).bayNode = pkt.u16 13 := by
      rcases h with h | h | h | h
      exacts [absurd (.inl h) hf, absurd (.inr (.inl h)) hf, absurd (.inr (.inr h)) hf, h]
    have held : p.nodeHeld i (pkt.u16 13) = true := nodeHeld_iff.mpr taken
    simp only [Part.storeEntry, bayEntry, if_neg hf, Option.bind_some, held, if_true]

theorem bayEntry_some (h₁ : pkt.u16 11 < 1023) (h₂ : pkt.u16 13 < 1023) (h₃ : pkt.u8 17 < 16) :
    bayEntry pkt = some
      { diverter := pkt.u16 11, bayNode := pkt.u16 13, arch := pkt.u8 15, spur := max 4 (min 32 (pkt.u8 16)),
        zones := pkt.byte 17 } := by
  rw [bayEntry, if_neg (by omega), clamp_eq (by omega)]

theorem storeEntry_bayTable {e : BayDir} (he : bayEntry pkt = some e)
    (h : ¬ ∃ b, 1 ≤ b ∧ b ≤ 64 ∧ b ≠ i ∧ e.bayNode ≠ 0 ∧ (p.bayDir b).bayNode = e.bayNode) :
    p.storeEntry .bayTable i pkt = some (p.modTables (fun x => { x with bayDir := Map.set {} x.bayDir i e })) := by
  have held : p.nodeHeld i e.bayNode = false := Bool.eq_false_iff.mpr (mt nodeHeld_iff.mp h)
  simp only [Part.storeEntry, he, Option.bind_some, held, Bool.false_eq_true, if_false]

theorem bayDir_modTables (e : BayDir) (p : Part) (i : Nat) :
    (p.modTables (fun x => { x with bayDir := Map.set {} x.bayDir i e })).bayDir i = e :=
  Map.get_set_self ({} : BayDir) p.tables.bayDir i e

/-- Settles O24: table by table, the entry written is the one read, and every other entry stands. -/
theorem descriptionTablesStoreTheirEntries : Obligations.DescriptionTablesStoreTheirEntries := by
  intro s pkt h i refused stores flag
  refine ⟨fun hk h₁ h₂ hm => ?_, fun hk h₁ h₂ hm => ?_, fun hk h₁ h₂ ho => ?_, fun hk h₁ h₂ hm => ?_,
    fun hk h₁ h₂ hstate => ?_⟩
  · have hn := namesEntry_articleMap hk h₁ h₂
    have bar : s.part.writeBar .articleMap (pkt.u16 9) = none := writeBar_config_none hm (.inl rfl)
    refine ⟨fun hv => ?_, fun hf => ⟨_, ?_, fun a => Map.get_set {} s.part.tables.articles i a {}⟩,
      fun z hf hz hw hg => ⟨_, ?_, fun a => Map.get_set {} s.part.tables.articles i a _⟩⟩
    · refine exec_tableWrite_meaningless h hn bar ?_
      simp only [Part.storeEntry, articleEntry_meaningless hv, Option.map_none]
    · refine exec_tableWrite_stored h hn bar (storeEntry_articleMap (articleEntry_invalid hf)) ?_
      rw [Part.readEntry, article_modTables]
      rfl
    · refine exec_tableWrite_stored h hn bar (storeEntry_articleMap (articleEntry_valid hf hz hw hg)) ?_
      rw [Part.readEntry, article_modTables, ← Zone.code_of_ofCode hz]
      rfl
  · have hn := namesEntry (t := .groups) hk h₁ h₂ (by simp)
    have bar : s.part.writeBar .groups (pkt.u16 9) = none := writeBar_config_none hm (.inr (.inl rfl))
    refine ⟨fun hv => ?_, fun hm hd => ⟨_, ?_, fun g => Map.get_set [] s.part.tables.groups i g _⟩⟩
    · refine exec_tableWrite_meaningless h hn bar ?_
      simp only [Part.storeEntry, groupEntry_meaningless hv, Option.map_none]
    · refine exec_tableWrite_stored h hn bar (storeEntry_groups (groupEntry_some hm hd)) ?_
      rw [Part.readEntry, group_modTables]
      rfl
  · have hn := namesEntry (t := .laneDirectory) hk h₁ h₂ (by simp)
    have bar : s.part.writeBar .laneDirectory (pkt.u16 9) = none :=
      if_neg (Bool.eq_false_iff.mp ho)
    refine ⟨fun hv => ?_, fun z hnode hz hf => ⟨_, ?_, fun l => Map.get_set {} s.part.tables.laneDir i l _⟩⟩
    · refine exec_tableWrite_meaningless h hn bar ?_
      simp only [Part.storeEntry, laneEntry_meaningless hv, Option.map_none]
    · refine exec_tableWrite_stored h hn bar (storeEntry_laneDirectory (laneEntry_some hnode hz hf)) ?_
      simp only [Part.readEntry, Part.laneBytes, laneDir_modTables, Zone.code_of_ofCode hz, bFlag_of_le hf,
        lane_modTables, show (s.part.lane (pkt.u16 9)).online = false from ho]
      rfl
  · have hn := namesEntry (t := .archMap) hk h₁ h₂ (by simp)
    have bar : s.part.writeBar .archMap (pkt.u16 9) = none := writeBar_config_none hm (.inr (.inr (.inl rfl)))
    refine ⟨fun hv => ?_, fun hf hl => ⟨_, ?_, fun a => Map.get_set false s.part.tables.scales i a _⟩⟩
    · refine exec_tableWrite_meaningless h hn bar ?_
      simp only [Part.storeEntry, archEntry_meaningless hv, Option.map_none]
    · refine exec_tableWrite_stored h hn bar (storeEntry_archMap hf hl) ?_
      exact readEntry_archMap hf hl (Nat.one_le_iff_ne_zero.mp h₁)
  · have hn := namesEntry (t := .bayTable) hk h₁ h₂ (by simp)
    have bar : s.part.writeBar .bayTable (pkt.u16 9) = none := if_pos hstate
    refine ⟨fun hv => ?_, fun hd hb hz ht => ⟨_, ?_, fun b => Map.get_set {} s.part.tables.bayDir i b _⟩⟩
    · exact exec_tableWrite_meaningless h hn bar (storeEntry_bayTable_meaningless hv)
    · refine exec_tableWrite_stored h hn bar (storeEntry_bayTable (bayEntry_some hd hb hz) ht) ?_
      simp only [Part.readEntry, Part.bayBytes, bayDir_modTables, b8_u8, build_modTables,
        show (s.part.build (pkt.u16 9)).state = .outOfService from hstate]
      rfl

end Sys2Proof.Machine

namespace Sys2Proof.Machine

variable {pkt : Packet} {p q : Part} {s : State} {t : TableId} {i : Nat}

/-! ### Runs of entries (R44, R47) -/

/-- A run of entries replaces those at its own indices. -/
theorem Map.get_setRun {α : Type} [DecidableEq α] (d : α) (l : List α) (m : Map α) (start k : Nat) :
    Map.get d (Map.setRun d m start l) k =
      if start ≤ k ∧ k < start + l.length then l.getD (k - start) d else Map.get d m k := by
  induction l generalizing m start with
  | nil => rw [Map.setRun, if_neg (by simp)]
  | cons v l ih =>
    rw [Map.setRun, ih, Map.get_set, List.length_cons]
    by_cases hk : k = start
    · subst hk
      simp
    · by_cases hin : start + 1 ≤ k ∧ k < start + 1 + l.length
      · rw [if_pos hin, if_pos (by omega), show k - start = k - (start + 1) + 1 by omega, List.getD_cons_succ]
      · rw [if_neg hin, if_neg hk, if_neg (by omega)]

/-! ### Tables 6 to 9 (R42 to R45, R147) -/

theorem constRange_of_row {lo hi : Nat} (h : [(1, 255), (1, 65535), (1, 255), (1, 255), (1, 255), (1, 65535), (1, 15),
    (1, 15), (0, 255), (0, 512)][i]? = some (lo, hi)) : i ≤ 9 ∧ constRange i = (lo, hi) ∧ lo ≤ hi := by
  obtain ⟨hlt, he⟩ := List.getElem?_eq_some_iff.mp h
  have hi : i ≤ 9 := by simpa [Nat.lt_succ_iff] using hlt
  refine ⟨hi, ?_⟩
  interval_cases i <;> obtain ⟨rfl, rfl⟩ := Prod.mk.inj he <;> exact ⟨rfl, by omega⟩

/-- A hall constant is stored within its range (R42). -/
theorem storeEntry_hallConstants {lo hi : Nat} (h : constRange i = (lo, hi)) (hle : lo ≤ hi) :
    p.storeEntry .hallConstants i pkt = some (p.modTables (fun x => { x with
      consts := x.consts.set i (if pkt.u16 11 < lo then lo else if hi < pkt.u16 11 then hi else pkt.u16 11) })) := by
  have value : clamp lo hi (pkt.u16 11) =
      if pkt.u16 11 < lo then lo else if hi < pkt.u16 11 then hi else pkt.u16 11 := by
    rw [clamp]
    split
    · omega
    · split <;> omega
  simp only [Part.storeEntry, h, value]

/-- The calendar entries as a write carries them (R44). -/
theorem calendarEntry_written (e : Nat) :
    Map.get 0 (Map.setRun 0 p.tables.calendar (16 * i) ((List.range' 11 16).map pkt.u8)) e =
      if 16 * i ≤ e ∧ e < 16 * i + 16 then pkt.u8 (11 + (e - 16 * i)) else p.calendarEntry e := by
  rw [Map.get_setRun, List.length_map, List.length_range']
  refine if_ctx_congr Iff.rfl (fun he => ?_) fun _ => rfl
  have hlt : e - 16 * i < 16 := by omega
  simp [List.getD_eq_getElem?_getD, hlt]

theorem readEntry_calendar : (p.modTables (fun x => { x with
      calendar := Map.setRun 0 x.calendar (16 * i) ((List.range' 11 16).map pkt.u8) })).readEntry .calendar i =
    (List.range 16).map (fun k => pkt.byte (11 + k)) := by
  have each : ∀ k ∈ List.range 16, b8 ((p.modTables (fun x => { x with
      calendar := Map.setRun 0 x.calendar (16 * i) ((List.range' 11 16).map pkt.u8) })).calendarEntry (16 * i + k)) =
      [pkt.byte (11 + k)] := fun k hk => by
    have hlt := List.mem_range.mp hk
    refine Eq.trans (congrArg b8 (calendarEntry_written (16 * i + k))) ?_
    rw [if_pos (by omega), Nat.add_sub_cancel_left, b8_u8]
  rw [Part.readEntry, flatMap_range', List.flatMap_congr each]
  exact List.flatMap_pure_eq_map _ _

/-! ### Styles and Step Store groups (R46 to R48) -/

theorem stepEntry_eq (j : Nat) : stepEntry pkt j =
    if pkt.u8 j = 0 then some .invalid
    else if pkt.u8 j = 1 ∨ pkt.u8 j = 2 then
      if pkt.u8 (j + 1) = 0 then none
      else some (.action (decide (pkt.u8 j = 2)) (pkt.u8 (j + 1)) (pkt.u16 (j + 2)))
    else if pkt.u8 j = 3 then some (.wait (max 1 (pkt.u16 (j + 2))))
    else if pkt.u8 j = 4 then some (.note (pkt.u16 (j + 2)))
    else if pkt.u8 j = 5 then some .finish
    else none := by
  rcases h : pkt.u8 j with _ | _ | _ | _ | _ | _ | n <;> simp [stepEntry, h]

theorem stepGroup_meaningless (h : stepEntry pkt 11 = none ∨ stepEntry pkt 15 = none ∨ stepEntry pkt 19 = none ∨
    stepEntry pkt 23 = none) : stepGroup pkt = none := by
  unfold stepGroup
  split
  · next h₀ h₁ h₂ h₃ => simp [h₀, h₁, h₂, h₃] at h
  · rfl

section Group

variable {x₀ x₁ x₂ x₃ : Step}

theorem stepGroup_some (h₀ : stepEntry pkt 11 = some x₀) (h₁ : stepEntry pkt 15 = some x₁)
    (h₂ : stepEntry pkt 19 = some x₂) (h₃ : stepEntry pkt 23 = some x₃) : stepGroup pkt = some [x₀, x₁, x₂, x₃] := by
  simp only [stepGroup, h₀, h₁, h₂, h₃]

/-- The four steps of a group, each at its own index. -/
theorem step_written (k : Nat) : Map.get .invalid (Map.setRun .invalid p.tables.steps (4 * i) [x₀, x₁, x₂, x₃]) k =
    if k = 4 * i then x₀ else if k = 4 * i + 1 then x₁ else if k = 4 * i + 2 then x₂
    else if k = 4 * i + 3 then x₃ else p.step k := by
  rw [Map.get_setRun]
  by_cases hk : 4 * i ≤ k ∧ k < 4 * i + 4
  · obtain ⟨j, rfl⟩ := Nat.exists_eq_add_of_le hk.1
    have hj : j < 4 := by omega
    interval_cases j <;> simp
  · rw [if_neg (by simpa using hk), if_neg (by omega), if_neg (by omega), if_neg (by omega), if_neg (by omega)]
    rfl

theorem readEntry_stepStore : (p.modTables (fun x => { x with
      steps := Map.setRun .invalid x.steps (4 * i) [x₀, x₁, x₂, x₃] })).readEntry .stepStore i =
    x₀.bytes ++ x₁.bytes ++ x₂.bytes ++ x₃.bytes := by
  have each : ∀ k, (p.modTables (fun x => { x with
      steps := Map.setRun .invalid x.steps (4 * i) [x₀, x₁, x₂, x₃] })).step k = _ := step_written (p := p) (i := i)
  rw [Part.readEntry, flatMap_range']
  simp [each, List.flatMap_def, List.range_succ]

end Group

/-! ### Routing and destinations (R49, R50, R195) -/

theorem RouteAction.ofCode_eq_none {n : Nat} (h : 2 < n) : RouteAction.ofCode n = Option.none := by
  unfold RouteAction.ofCode
  split <;> first | omega | rfl

theorem RouteAction.code_of_ofCode {n : Nat} {a : RouteAction} (h : RouteAction.ofCode n = some a) : a.code = n := by
  unfold RouteAction.ofCode at h
  split at h <;> first | (cases h; rfl) | cases h

theorem routingEntry_meaningless (h : 4 < pkt.u8 11 ∨ 2 < pkt.u8 12) : routingEntry pkt = none := by
  unfold routingEntry
  split
  · next a ha =>
    refine if_pos (h.resolve_right fun hlt => ?_)
    rw [RouteAction.ofCode_eq_none hlt] at ha
    cases ha
  · rfl

theorem routingEntry_some {a : RouteAction} (h : pkt.u8 11 ≤ 4) (ha : RouteAction.ofCode (pkt.u8 12) = some a) :
    routingEntry pkt = some { dest := pkt.u8 11, action := a, tags := pkt.u16 13 } := by
  simp only [routingEntry, ha, if_neg (Nat.not_lt.mpr h)]

theorem storeEntry_routing {e : Routing} (h : routingEntry pkt = some e) :
    p.storeEntry .routing i pkt = some (p.modTables (fun x => { x with routing := Map.set {} x.routing i e })) := by
  simp only [Part.storeEntry, h, Option.map_some]

/-- The Hall Tables with a destination's entry written (R50). -/
def Tables.writeDestination (i : Nat) (e : Destination) (x : Tables) : Tables :=
  { x with dests := Map.set {} x.dests i e }

theorem destination_written (e : Destination) : (p.modTables (Tables.writeDestination i e)).destination i = e :=
  Map.get_set_self ({} : Destination) p.tables.dests i e

/-- A written destination that is not STALLED, or has no node, makes no post attempt (R195). -/
theorem storeEntry_destinations_rests (h : pkt.u16 11 ≤ 1023)
    (hq : (p.noticeQueue i).state ≠ .stalled ∨ pkt.u16 11 = 0) : p.storeEntry .destinations i pkt =
      some (p.modTables (Tables.writeDestination i { node := pkt.u16 11, pacing := pkt.u8 13 })) := by
  rw [Part.storeEntry, destinationEntry, if_neg (Nat.not_lt.mpr h), Option.map_some]
  refine congrArg some (if_neg ?_)
  rintro ⟨hs, hn⟩
  have node := destination_written (p := p) (i := i) { node := pkt.u16 11, pacing := pkt.u8 13 }
  exact hq.elim (fun hq => hq hs) fun hz => hn ((congrArg Destination.node node).trans hz)

/-- A written destination that is STALLED and has a node makes one (R195). -/
theorem storeEntry_destinations_tries (h : pkt.u16 11 ≤ 1023) (hq : (p.noticeQueue i).state = .stalled)
    (hn : pkt.u16 11 ≠ 0) : p.storeEntry .destinations i pkt =
      some ((p.modTables (Tables.writeDestination i { node := pkt.u16 11, pacing := pkt.u8 13 })).postAttempt i) := by
  rw [Part.storeEntry, destinationEntry, if_neg (Nat.not_lt.mpr h), Option.map_some]
  have node := destination_written (p := p) (i := i) { node := pkt.u16 11, pacing := pkt.u8 13 }
  exact congrArg some (if_pos ⟨hq, fun hz => hn ((congrArg Destination.node node).symm.trans hz)⟩)

/-! ### What a read of a written entry shows -/

theorem readEntry_styles (v : Nat) (h : p.useCount i = 0) :
    (p.modTables (fun x => { x with styles := Map.set 0 x.styles i v })).readEntry .styles i = b16 v ++ b8 0 :=
  congrArg₂ (b16 · ++ b8 ·) (Map.get_set_self 0 p.tables.styles i v) h

theorem readEntry_routing (e : Routing) :
    (p.modTables (fun x => { x with routing := Map.set {} x.routing i e })).readEntry .routing i =
      b8 e.dest ++ b8 e.action.code ++ b16 e.tags :=
  congrArg (fun x : Routing => b8 x.dest ++ b8 x.action.code ++ b16 x.tags)
    (Map.get_set_self ({} : Routing) p.tables.routing i e)

theorem readEntry_managers (v : Nat) :
    (p.modTables (fun x => { x with managers := Map.set 0 x.managers i v })).readEntry .managers i = b16 v :=
  congrArg b16 (Map.get_set_self 0 p.tables.managers i v)

theorem readEntry_destinations (e : Destination) (h : q.tables = Tables.writeDestination i e p.tables) :
    q.readEntry .destinations i = b16 e.node ++ b8 e.pacing := by
  rw [Part.readEntry, Part.destination, h]
  exact congrArg (fun x : Destination => b16 x.node ++ b8 x.pacing)
    (Map.get_set_self ({} : Destination) p.tables.dests i e)

/-- Settles O25: table by table, the entry written is the one read, and every other entry stands. -/
theorem schedulingAndFinishTablesStoreTheirEntries : Obligations.SchedulingAndFinishTablesStoreTheirEntries := by
  intro s pkt h i refused reply stores
  refine ⟨fun lo hi hk hr => ?_, fun hk h₂ hm => ?_, fun hk h₂ => ⟨_, ?_, fun e => calendarEntry_written e⟩,
    fun hk hi => ?_, fun hk h₁ h₂ hu => ?_, fun hk h₂ hu => ?_, fun hk h₁ h₂ => ?_, fun hk h₁ h₂ => ?_,
    fun hk h₁ h₂ => ?_⟩
  · obtain ⟨h₂, hc, hle⟩ := constRange_of_row hr
    have hn := namesEntry (t := .hallConstants) hk (Nat.zero_le _) h₂ (by simp)
    exact exec_tableWrite_stored h hn rfl (storeEntry_hallConstants hc hle) rfl
  · have hn := namesEntry (t := .tares) hk (Nat.zero_le _) h₂ (by simp)
    have bar : s.part.writeBar .tares (pkt.u16 9) = none := writeBar_config_none hm (.inr (.inr (.inr rfl)))
    exact exec_tableWrite_stored h hn bar rfl rfl
  · have hn := namesEntry (t := .calendar) hk (Nat.zero_le _) h₂ (by simp)
    exact exec_tableWrite_stored h hn rfl rfl readEntry_calendar
  · have hn := namesEntry (t := .zoneWeights) hk (Nat.zero_le _) (Nat.le_of_eq hi) (by simp)
    have stored := tableWrite_stored (p := s.part.replied pkt .ok []) hn.named hn.not_articleZero rfl rfl
    exact exec_request_changed (q := (s.part.modTables (fun x =>
      { x with weights := (List.range' 11 4).map (fun j => min 15 (pkt.u8 j)) })).reloadCredits)
      (exec_tableWrite pkt) h rfl stored
  · have hn := namesEntry (t := .styles) hk h₁ h₂ (by simp)
    have bar : s.part.writeBar .styles (pkt.u16 9) = none := if_pos hu
    refine ⟨fun hv => exec_tableWrite_meaningless h hn bar (if_pos hv),
      fun hv => ⟨_, ?_, fun y => Map.get_set 0 s.part.tables.styles i y _⟩⟩
    exact exec_tableWrite_stored h hn bar (if_neg (Nat.not_lt.mpr hv)) (readEntry_styles _ hu)
  · have hn := namesEntry (t := .stepStore) hk (Nat.zero_le _) h₂ (by simp)
    have bar : s.part.writeBar .stepStore (pkt.u16 9) = none := if_neg fun hs => by
      obtain ⟨k, y, hk, h₁, h₂, hu', hf⟩ := stepsInUse_iff.mp hs
      exact Bool.eq_false_iff.mp (hu k y hk h₁ h₂ hu') hf
    intro sent read
    have sends : ∀ j, sent j = stepEntry pkt j := fun j => (stepEntry_eq j).symm
    have reads : ∀ x, read x = x.bytes := fun x => by cases x <;> rfl
    simp only [sends, reads]
    refine ⟨fun hv => ?_, fun x₀ x₁ x₂ x₃ hx₀ hx₁ hx₂ hx₃ => ⟨_, ?_, fun k => step_written k⟩⟩
    · refine exec_tableWrite_meaningless h hn bar ?_
      simp only [Part.storeEntry, stepGroup_meaningless hv, Option.map_none]
    · refine exec_tableWrite_stored h hn bar ?_ readEntry_stepStore
      simp only [Part.storeEntry, stepGroup_some hx₀ hx₁ hx₂ hx₃, Option.map_some]
  · have hn := namesEntry (t := .routing) hk h₁ h₂ (by simp)
    refine ⟨fun hv => ?_, fun a hd ha => ⟨_, ?_, fun k => Map.get_set {} s.part.tables.routing i k _⟩⟩
    · refine exec_tableWrite_meaningless h hn rfl ?_
      simp only [Part.storeEntry, routingEntry_meaningless hv, Option.map_none]
    · refine exec_tableWrite_stored h hn rfl (storeEntry_routing (routingEntry_some hd ha)) ?_
      rw [readEntry_routing, RouteAction.code_of_ofCode ha]
  · have hn := namesEntry (t := .destinations) hk h₁ h₂ (by simp)
    refine ⟨fun hv => ?_, fun hv => ⟨_, fun d => Map.get_set {} s.part.tables.dests i d _, fun hq => ?_,
      fun hq hz => ?_⟩⟩
    · refine exec_tableWrite_meaningless h hn rfl ?_
      simp only [Part.storeEntry, destinationEntry, if_pos hv, Option.map_none]
    · exact exec_tableWrite_stored h hn rfl (storeEntry_destinations_rests hv hq) 
        (readEntry_destinations (p := s.part) { node := pkt.u16 11, pacing := pkt.u8 13 } rfl)
    · have stored := tableWrite_stored (p := s.part.replied pkt .ok []) hn.named hn.not_articleZero rfl
        (storeEntry_destinations_tries hv hq hz)
      have shown := readEntry_destinations (p := s.part) { node := pkt.u16 11, pacing := pkt.u8 13 }
        (tables_attempts i (s.part.noticeQueue i).queue ((s.part.replied pkt .ok []).modTables
          (Tables.writeDestination i { node := pkt.u16 11, pacing := pkt.u8 13 })))
      have answered := exec_request_answered (exec_tableWrite pkt) h stored
      rw [Part.readData] at answered
      exact ⟨_, shown ▸ answered, postAttempt_triesToPost i _⟩
  · have hn := namesEntry (t := .managers) hk h₁ h₂ (by simp)
    refine ⟨fun hv => exec_tableWrite_meaningless h hn rfl (if_pos hv),
      fun hv => ⟨_, ?_, fun y => Map.get_set 0 s.part.tables.managers i y _⟩⟩
    exact exec_tableWrite_stored h hn rfl (if_neg (Nat.not_le.mpr hv)) (readEntry_managers _)

end Sys2Proof.Machine

namespace Sys2Proof.Machine

variable {α β : Type} {m : Map α} {p : Part} {pkt : Packet}

/-! ### Stores made anew -/

/-- A filtered store lists what it kept. -/
theorem Map.find?_filter (h : Map.rising m = true) (c : Nat × α → Bool) (k : Nat) :
    Map.find? (m.filter c) k = (Map.find? m k).filter (fun v => c (k, v)) := by
  refine Option.ext fun v => ?_
  rw [Map.find?_eq_some_iff_mem (Map.rising_filter h c), List.mem_filter, Option.filter_eq_some_iff,
    Map.find?_eq_some_iff_mem h]

theorem Map.find?_map (g : α → β) (m : Map α) (k : Nat) :
    Map.find? (m.map (fun kv => (kv.1, g kv.2))) k = (Map.find? m k).map g := by
  induction m with
  | nil => rfl
  | cons e m ih =>
    rw [List.map_cons, Map.find?_cons, Map.find?_cons, ih]
    split <;> rfl

/-- A store remade reads every entry as its image. -/
theorem Map.get_remake [DecidableEq α] (d : α) (f : α → α) (hf : f d = d) (h : Map.rising m = true) (k : Nat) :
    Map.get d (Map.remake d f m) k = f (Map.get d m k) := by
  rw [← Map.get_mapValues d f hf m k, Map.remake, Map.get, Map.get, Map.find?_filter (Map.rising_mapValues h f)]
  cases Map.find? (Map.mapValues f m) k with
  | none => rfl
  | some v => by_cases hv : v = d <;> simp [hv, Option.filter]

/-! ### What a line restart leaves (R24) -/

theorem order_restart (p : Part) (n : Nat) : p.restart.order? n = (p.order? n).map Order.restarted :=
  Map.find?_mapValues Order.restarted p.book.orders n

theorem build_restart (h : Map.rising p.builds = true) (b : Nat) : p.restart.build b = (p.build b).restarted :=
  Map.get_remake ({} : Build) Build.restarted rfl h b

theorem call_restart (h : Map.rising p.calls.recs = true) (r : Nat) : p.restart.call r = (p.call r).restarted :=
  Map.get_remake ({} : Call) Call.restarted rfl h r

theorem lane_restart (h : Map.rising p.tables.laneDir = true) (l : Nat) : p.restart.lane l =
    { online := (p.laneDir l).configured && decide ((p.laneDir l).node ≠ 0) } := by
  have found : Map.find? p.restartedLanes l = ((Map.find? p.tables.laneDir l).filter
      (fun d => d.configured && decide (d.node ≠ 0))).map (fun _ => { online := true }) := by
    rw [Part.restartedLanes, Map.find?_map (fun _ => ({ online := true } : Lane)), Map.find?_filter h]
  rw [Part.laneDir, Map.get]
  refine (congrArg (fun o => o.getD ({} : Lane)) found).trans ?_
  cases Map.find? p.tables.laneDir l with
  | none => rfl
  | some d =>
    simp only [Option.filter, Option.getD_some]
    by_cases hd : (d.configured && decide (d.node ≠ 0)) = true
    · rw [if_pos hd, hd]
      rfl
    · rw [if_neg hd, Bool.eq_false_iff.mpr hd]
      rfl

theorem Call.restarted_state (c : Call) : c.restarted.state = .free := by
  unfold Call.restarted
  split
  · assumption
  · rfl

theorem Call.restarted_lastLane (c : Call) : c.restarted.lastLane = c.lastLane := by
  unfold Call.restarted
  split <;> rfl

theorem Call.restarted_generation (c : Call) :
    c.restarted.generation = if c.state = .free then c.generation else (c.generation + 1) % 16 := by
  unfold Call.restarted
  split <;> rfl

theorem Build.restarted_eq (x : Build) : x.restarted =
    { state := if x.state = .outOfService ∨ (x.state = .draining ∧ x.pendingOut = true) then .outOfService else .idle,
      epoch := x.epoch, holdFlag := x.holdFlag } := by
  have state : (if x.state = .outOfService then BuildState.outOfService
      else if x.state = .draining && x.pendingOut then .outOfService else .idle) =
      if x.state = .outOfService ∨ (x.state = .draining ∧ x.pendingOut = true) then .outOfService else .idle := by
    by_cases h : x.state = .outOfService <;> simp [h]
  rw [Build.restarted, state]

/-- The normal queue that a restart leaves holds its own reply alone. -/
theorem normal_restart (q : List Post) (x : Post) (n : Nat) : ((q ++ [x]).getLast?.toList).set n x = [x] := by
  cases n <;> simp

/-- Settles O22: block by block. -/
theorem restartResetsTheBlocks : Obligations.RestartResetsTheBlocks := by
  intro s pkt h
  refine ⟨_, exec_request_answered (exec_restart pkt) h (q := (s.part.replied pkt .ok []).restart) rfl,
    rfl, rfl, ?_, rfl, rfl, rfl, rfl, fun _ => rfl, fun _ => rfl, rfl, fun n => ?_, fun hr b => ?_, rfl,
    fun _ => rfl, fun _ => rfl, rfl, rfl, fun hr r => ?_, fun hr l => ?_⟩
  · exact normal_restart _ _ _
  · refine (order_restart (s.part.replied pkt .ok []) n).trans ?_
    rfl
  · exact (build_restart (p := s.part.replied pkt .ok []) hr b).trans (Build.restarted_eq _)
  · have e := call_restart (p := s.part.replied pkt .ok []) hr r
    exact ⟨(congrArg Call.state e).trans (Call.restarted_state _),
      (congrArg Call.lastLane e).trans (Call.restarted_lastLane _),
      (congrArg Call.generation e).trans (Call.restarted_generation _)⟩
  · exact lane_restart (p := s.part.replied pkt .ok []) hr l

end Sys2Proof.Machine

namespace Sys2Proof.Machine

variable {p q t : Part} {b r : Nat} {rs ks : List Nat} {pkt : Packet} {off : LaneAction}

/-! ### FOREIGN records given up (R177) -/

/-- The carrier of a hold record. -/
def Part.trayOf (p : Part) (r : Nat) : Nat := (p.holdRec r).carrier

/-- The carrier of a record that is given up: one HELD or RETURNING takes the state it departs with. -/
def Part.givenCarrier (p : Part) (r : Nat) : Carrier :=
  match (p.carrier (p.trayOf r)).state with
  | .held _ _ role => (p.carrier (p.trayOf r)).departed role (p.holdRec r)
  | .returning _ _ role => (p.carrier (p.trayOf r)).departed role (p.holdRec r)
  | _ => p.carrier (p.trayOf r)

/-- Records are given up one after another: each joins the head of the free list with its FREE values, and its carrier
departs. The builds are left to the lemmas about them. -/
structure Part.GivenUp (rs : List Nat) (p t : Part) : Prop where
  frame : t = { p with
    builds := t.builds
    carriers := t.carriers
    pool := { free := rs.reverse ++ p.pool.free, recs := t.pool.recs, armed := p.pool.armed || decide (rs ≠ []) } }
  recs : ∀ k, t.holdRec k = if k ∈ rs then {} else p.holdRec k
  carrier : ∀ c, c ∉ rs.map p.trayOf → t.carrier c = p.carrier c
  given : ∀ r ∈ rs, t.carrier (p.trayOf r) = p.givenCarrier r

theorem Part.GivenUp.refl (p : Part) : Part.GivenUp [] p p where
  frame := by simp
  recs _ := by simp
  carrier _ _ := rfl
  given _ h := absurd h List.not_mem_nil

theorem Part.GivenUp.modBuild (h : Part.GivenUp rs p t) (b : Nat) (f : Build → Build) :
    Part.GivenUp rs p (t.modBuild b f) where
  frame := by
    conv_lhs => rw [h.frame]
    rfl
  recs := h.recs
  carrier := h.carrier
  given := h.given

/-- What a record not given up reads as is what it was. -/
theorem Part.GivenUp.kept (h : Part.GivenUp rs p q) {k : Nat} (hk : k ∉ rs) : q.holdRec k = p.holdRec k := by
  rw [h.recs, if_neg hk]

theorem Part.GivenUp.trans (h : Part.GivenUp rs p q) (h' : Part.GivenUp ks q t) (hd : (rs ++ ks).Nodup)
    (hc : ((rs ++ ks).map p.trayOf).Nodup) : Part.GivenUp (rs ++ ks) p t := by
  have apart : ∀ k ∈ ks, k ∉ rs := fun k hk hr => (List.nodup_append.mp hd).2.2 k hr k hk rfl
  have tray : ∀ k ∈ ks, q.trayOf k = p.trayOf k := fun k hk => by
    rw [Part.trayOf, h.kept (apart k hk)]
    rfl
  rw [List.map_append] at hc
  have trays : ∀ r ∈ rs, ∀ k ∈ ks, p.trayOf k ≠ p.trayOf r := fun r hr k hk he =>
    (List.nodup_append.mp hc).2.2 _ (List.mem_map_of_mem hr) _ (List.mem_map_of_mem hk) he.symm
  have still : ∀ k ∈ ks, q.carrier (p.trayOf k) = p.carrier (p.trayOf k) := fun k hk =>
    h.carrier _ fun hmem => by
      obtain ⟨r, hr, he⟩ := List.mem_map.mp hmem
      exact trays r hr k hk he.symm
  have mapped : ks.map q.trayOf = ks.map p.trayOf := List.map_congr_left tray
  refine ⟨?_, fun k => ?_, fun c hnc => ?_, fun r hr => ?_⟩
  · conv_lhs => rw [h'.frame, h.frame]
    simp [Bool.or_assoc]
  · rw [h'.recs, h.recs]
    by_cases hk : k ∈ ks <;> by_cases hr : k ∈ rs <;> simp [hk, hr]
  · rw [List.map_append, List.mem_append, not_or] at hnc
    rw [h'.carrier c (mapped ▸ hnc.2), h.carrier c hnc.1]
  · rcases List.mem_append.mp hr with hr | hk
    · rw [h'.carrier, h.given r hr]
      rw [mapped]
      rintro hmem
      obtain ⟨k, hk, he⟩ := List.mem_map.mp hmem
      exact trays r hr k hk he
    · have hgiven := h'.given r hk
      rw [tray r hk] at hgiven
      rw [hgiven, Part.givenCarrier, tray r hk, still r hk, h.kept (apart r hk)]
      rfl

theorem giveUpForeign_line (h : (p.holdRec r).isLine = true) : p.giveUpForeign b r = p := by
  unfold HoldRecord.isLine at h
  unfold Part.giveUpForeign
  split at h
  · next i hr => simp only [hr]
  · cases h

theorem giveUpForeign_foreign (h : (p.holdRec r).isLine = false) : ∃ cs : Map Carrier,
    (∀ c, Map.get {} cs c = if c = p.trayOf r then p.givenCarrier r else p.carrier c) ∧
    p.giveUpForeign b r = { p with carriers := cs }.unlink b r := by
  have set : ∀ v, (∀ c, Map.get {} (p.setCarrier (p.trayOf r) v).carriers c =
      if c = p.trayOf r then v else p.carrier c) := fun v c => Part.carrier_setCarrier _ _ _ _
  unfold HoldRecord.isLine at h
  split at h
  · cases h
  · next hr =>
    simp only [Part.giveUpForeign, hr, Part.givenCarrier]
    split
    · next hs => exact ⟨_, set _, by simp only [show (p.carrier (p.holdRec r).carrier).state = _ from hs]; rfl⟩
    · next hs => exact ⟨_, set _, by simp only [show (p.carrier (p.holdRec r).carrier).state = _ from hs]; rfl⟩
    · next hh hr' =>
      refine ⟨p.carriers, fun c => ?_, ?_⟩
      · split
        · next hc => exact hc ▸ rfl
        · rfl
      · split
        · next hs => exact absurd hs (hh _ _ _)
        · next hs => exact absurd hs (hr' _ _ _)
        · rfl

/-- A FOREIGN record is unlinked from its bay, and given up. -/
theorem giveUpForeign_givenUp (h : (p.holdRec r).isLine = false) : Part.GivenUp [r] p (p.giveUpForeign b r) ∧
    ∀ k, (p.giveUpForeign b r).build k =
      if k = b then { p.build b with hold := (p.build b).hold.filter (· ≠ r) } else p.build k := by
  obtain ⟨cs, hc, he⟩ := giveUpForeign_foreign (b := b) h
  rw [he]
  refine ⟨⟨?_, fun k => ?_, fun c hnc => ?_, fun k hk => ?_⟩, fun k => ?_⟩
  · simp [Part.unlink, Part.freeHold, Part.setRec, Part.modBuild]
  · rw [Part.unlink, holdRec_freeHold]
    simp only [List.mem_singleton]
    rfl
  · refine (hc c).trans (if_neg ?_)
    simpa using hnc
  · obtain rfl := List.mem_singleton.mp hk
    exact (hc _).trans (if_pos rfl)
  · rw [Part.unlink, build_freeHold, Part.build_modBuild]
    rfl

/-- The records of a list that are FOREIGN. -/
def Part.foreignOf (p : Part) (l : List Nat) : List Nat := l.filter (fun r => !(p.holdRec r).isLine)

theorem foreignOf_cons_line {l : List Nat} (h : (p.holdRec r).isLine = true) :
    p.foreignOf (r :: l) = p.foreignOf l := by
  simp [Part.foreignOf, h]

theorem foreignOf_cons_foreign {l : List Nat} (h : (p.holdRec r).isLine = false) :
    p.foreignOf (r :: l) = r :: p.foreignOf l := by
  simp [Part.foreignOf, h]

/-- A list none of whose records is given up has the FOREIGN records it had. -/
theorem Part.GivenUp.foreignOf {l : List Nat} (h : Part.GivenUp rs p q) (hr : ∀ r ∈ rs, (p.holdRec r).isLine = false)
    (hd : ∀ r ∈ rs, r ∉ p.foreignOf l) : q.foreignOf l = p.foreignOf l := by
  refine List.filter_congr fun k hk => ?_
  by_cases hkr : k ∈ rs
  · exact absurd (List.mem_filter.mpr ⟨hk, by simp [hr k hkr]⟩) (hd k hkr)
  · rw [h.kept hkr]

theorem foldl_giveUpForeign (l : List Nat) (p : Part) (hd : (p.foreignOf l).Nodup)
    (hc : ((p.foreignOf l).map p.trayOf).Nodup) :
    Part.GivenUp (p.foreignOf l) p (l.foldl (Part.giveUpForeign b) p) ∧
    ∀ k, (l.foldl (Part.giveUpForeign b) p).build k =
      if k = b then { p.build b with hold := (p.build b).hold.filter (fun r => decide (r ∉ p.foreignOf l)) }
      else p.build k := by
  induction l generalizing p with
  | nil =>
    refine ⟨.refl p, fun k => ?_⟩
    by_cases hk : k = b <;> simp [hk, Part.foreignOf]
  | cons r l ih =>
    cases h : (p.holdRec r).isLine with
    | true =>
      rw [foreignOf_cons_line h] at hd hc ⊢
      rw [List.foldl_cons, giveUpForeign_line h]
      exact ih p hd hc
    | false =>
      rw [foreignOf_cons_foreign h] at hd hc ⊢
      obtain ⟨one, builds⟩ := giveUpForeign_givenUp (b := b) h
      have same := one.foreignOf (l := l) (by simp [h]) (by simpa using (List.nodup_cons.mp hd).1)
      have trays : (p.foreignOf l).map (p.giveUpForeign b r).trayOf = (p.foreignOf l).map p.trayOf :=
        List.map_congr_left fun k hk => by
          have hne : k ∉ [r] := fun hkr => (List.nodup_cons.mp hd).1 (List.mem_singleton.mp hkr ▸ hk)
          rw [Part.trayOf, one.kept hne]
          rfl
      obtain ⟨rest, builds'⟩ := ih (p.giveUpForeign b r) (same ▸ (List.nodup_cons.mp hd).2)
        (by rw [same, trays]; exact (List.nodup_cons.mp hc).2)
      rw [same] at rest builds'
      refine ⟨one.trans rest hd hc, fun k => ?_⟩
      rw [List.foldl_cons, builds', builds, builds]
      by_cases hk : k = b <;> simp [hk, List.filter_filter, Bool.and_comm]

/-! ### The bays at the change to CONFIG (R22, R177) -/

theorem mem_bays : b ∈ Config.bays ↔ 1 ≤ b ∧ b ≤ 64 := by
  rw [Config.bays, List.mem_range'_1]
  omega

/-- The FOREIGN records of a bay whose build is IDLE. -/
def Part.givenBy (p : Part) (b : Nat) : List Nat :=
  if (p.build b).state = .idle then p.foreignOf (p.build b).hold else []

theorem givenBy_foreign (h : r ∈ p.givenBy b) : (p.holdRec r).isLine = false := by
  unfold Part.givenBy at h
  split at h
  · simpa using (List.mem_filter.mp h).2
  · cases h

/-- A build once the part is in CONFIG, where it was IDLE. -/
def Part.clearedBuild (p : Part) (b : Nat) : Build :=
  { p.build b with
    hold := (p.build b).hold.filter (fun r => (p.holdRec r).isLine)
    foreigns := 0
    pending := [] }

theorem giveUpBay_givenUp (b : Nat) (hd : (p.givenBy b).Nodup) (hc : ((p.givenBy b).map p.trayOf).Nodup) :
    Part.GivenUp (p.givenBy b) p (p.giveUpBay b) ∧
    ∀ k, (p.giveUpBay b).build k = if k = b ∧ (p.build k).state = .idle then p.clearedBuild k else p.build k := by
  unfold Part.givenBy at *
  unfold Part.giveUpBay
  by_cases hs : (p.build b).state = .idle
  · rw [if_pos hs] at hd hc ⊢
    rw [if_pos hs]
    obtain ⟨given, builds⟩ := foldl_giveUpForeign (b := b) (p.build b).hold p hd hc
    refine ⟨given.modBuild b _, fun k => ?_⟩
    rw [Part.build_modBuild, builds, builds]
    by_cases hk : k = b
    · subst hk
      have kept : (p.build k).hold.filter (fun r => !decide (r ∈ p.foreignOf (p.build k).hold)) =
          (p.build k).hold.filter (fun r => (p.holdRec r).isLine) :=
        List.filter_congr fun r hr => by simp [Part.foreignOf, hr]
      simp [hs, Part.clearedBuild, kept]
    · simp [hk]
  · rw [if_neg hs] at hd hc ⊢
    rw [if_neg hs]
    refine ⟨.refl p, fun k => (if_neg ?_).symm⟩
    rintro ⟨rfl, hs'⟩
    exact hs hs'

theorem foldl_giveUpBay (bs : List Nat) (p : Part) (hbs : bs.Nodup) (hd : (bs.flatMap p.givenBy).Nodup)
    (hc : ((bs.flatMap p.givenBy).map p.trayOf).Nodup) :
    Part.GivenUp (bs.flatMap p.givenBy) p (bs.foldl Part.giveUpBay p) ∧
    ∀ k, (bs.foldl Part.giveUpBay p).build k =
      if k ∈ bs ∧ (p.build k).state = .idle then p.clearedBuild k else p.build k := by
  induction bs generalizing p with
  | nil => exact ⟨.refl p, fun k => by simp⟩
  | cons b bs ih =>
    obtain ⟨hb, hbs⟩ := List.nodup_cons.mp hbs
    rw [List.flatMap_cons] at hd hc ⊢
    rw [List.foldl_cons]
    have hc' := hc
    rw [List.map_append] at hc'
    obtain ⟨hdb, hdr, apart⟩ := List.nodup_append.mp hd
    obtain ⟨one, builds⟩ := giveUpBay_givenUp b hdb (List.nodup_append.mp hc').1
    have other : ∀ k ∈ bs, (p.giveUpBay b).build k = p.build k := fun k hk => by
      rw [builds, if_neg]
      rintro ⟨rfl, -⟩
      exact hb hk
    have same : ∀ k ∈ bs, (p.giveUpBay b).givenBy k = p.givenBy k := fun k hk => by
      rw [Part.givenBy, Part.givenBy, other k hk]
      split
      · next hs =>
        refine one.foreignOf (fun r hr => givenBy_foreign hr) fun r hr hk' => ?_
        refine apart r hr r (List.mem_flatMap.mpr ⟨k, hk, ?_⟩) rfl
        rwa [Part.givenBy, if_pos hs]
      · rfl
    have flat : bs.flatMap (p.giveUpBay b).givenBy = bs.flatMap p.givenBy := List.flatMap_congr same
    have kept : ∀ r ∈ bs.flatMap p.givenBy, (p.giveUpBay b).holdRec r = p.holdRec r := fun r hr =>
      one.kept fun hr' => apart r hr' r hr rfl
    have trays : (bs.flatMap p.givenBy).map (p.giveUpBay b).trayOf = (bs.flatMap p.givenBy).map p.trayOf :=
      List.map_congr_left fun r hr => by rw [Part.trayOf, kept r hr]; rfl
    obtain ⟨rest, builds'⟩ := ih (p.giveUpBay b) hbs (flat ▸ hdr)
      (by rw [flat, trays]; exact (List.nodup_append.mp hc').2.1)
    rw [flat] at rest
    refine ⟨one.trans rest hd hc, fun k => ?_⟩
    by_cases hk : k ∈ bs
    · have cleared : (p.build k).state = .idle → (p.giveUpBay b).clearedBuild k = p.clearedBuild k := fun hs => by
        have lines : (p.build k).hold.filter (fun r => ((p.giveUpBay b).holdRec r).isLine) =
            (p.build k).hold.filter (fun r => (p.holdRec r).isLine) := List.filter_congr fun r hr => by
          rw [one.kept fun hr' => ?_]
          refine apart r hr' r (List.mem_flatMap.mpr ⟨k, hk, ?_⟩) rfl
          rw [Part.givenBy, if_pos hs]
          exact List.mem_filter.mpr ⟨hr, by simp [givenBy_foreign hr']⟩
        rw [Part.clearedBuild, other k hk, lines]
        rfl
      rw [builds', other k hk]
      by_cases hs : (p.build k).state = .idle
      · rw [if_pos ⟨hk, hs⟩, if_pos ⟨List.mem_cons_of_mem b hk, hs⟩, cleared hs]
      · rw [if_neg fun h => hs h.2, if_neg fun h => hs h.2]
    · rw [builds', if_neg fun h => hk h.1, builds]
      simp [hk]

/-! ### MODE (R22) -/

theorem modeRequest_badValue (h : Mode.ofCode (pkt.u8 8) = none) : modeRequest off pkt p = refuse .badValue p := by
  simp only [modeRequest, h]

theorem modeRequest_same (h : Mode.ofCode (pkt.u8 8) = some p.mode) : modeRequest off pkt p = accept [] p := by
  simp only [modeRequest, h, if_true]

theorem resting_iff (st : BuildState) : st.resting = true ↔ st = .idle ∨ st = .outOfService := by
  cases st <;> simp [BuildState.resting]

theorem restingAll_iff : Config.bays.all (fun b => (p.build b).state.resting) = true ↔
    ∀ b, 1 ≤ b → b ≤ 64 → (p.build b).state = .idle ∨ (p.build b).state = .outOfService := by
  simp only [List.all_eq_true, mem_bays, resting_iff, and_imp]

theorem modeRequest_badState (h : pkt.u8 8 = 0) (hm : p.mode ≠ .config)
    (hb : ∃ b, 1 ≤ b ∧ b ≤ 64 ∧ (p.build b).state ≠ .idle ∧ (p.build b).state ≠ .outOfService) :
    modeRequest off pkt p = refuse .badState p := by
  have busy : ¬ Config.bays.all (fun b => (p.build b).state.resting) = true := fun hall => by
    obtain ⟨b, h₁, h₂, hi, ho⟩ := hb
    exact (restingAll_iff.mp hall b h₁ h₂).elim hi ho
  simp only [modeRequest, h, Mode.ofCode, if_neg hm.symm]
  exact if_pos (by simpa using busy)

theorem modeRequest_config (h : pkt.u8 8 = 0) (hm : p.mode ≠ .config)
    (hb : ∀ b, 1 ≤ b → b ≤ 64 → (p.build b).state = .idle ∨ (p.build b).state = .outOfService) :
    modeRequest off pkt p = accept [] { Config.bays.foldl Part.giveUpBay p with mode := .config } := by
  simp only [modeRequest, h, Mode.ofCode, if_neg hm.symm]
  exact if_neg (by simp [restingAll_iff.mpr hb])

theorem modeRequest_paused (h : pkt.u8 8 = 2) (hm : p.mode ≠ .paused) :
    modeRequest off pkt p = accept [] { p with mode := .paused } := by
  simp only [modeRequest, h, Mode.ofCode, if_neg hm.symm]
  exact if_neg (by simp)

theorem modeRequest_run (h : pkt.u8 8 = 1) (hm : p.mode ≠ .run) :
    modeRequest off pkt p = accept [] (Part.bindingEvent off Config.bays { p with mode := .run }) := by
  simp only [modeRequest, h, Mode.ofCode, if_neg hm.symm]
  exact if_neg (by simp)

theorem Mode.ofCode_eq_none {n : Nat} (h : 2 < n) : Mode.ofCode n = none := by
  unfold Mode.ofCode
  split <;> first | omega | rfl

/-- A part whose Ring Port is as the reply left it is the part with the old Ring Port, replied. -/
theorem replied_of_ring (h : q.ring = (p.replied pkt .ok []).ring) :
    { q with ring := p.ring }.replied pkt .ok [] = q := by
  have e : { q with ring := p.ring }.replied pkt .ok [] = { q with ring := (p.replied pkt .ok []).ring } := rfl
  rw [e, ← h]

/-- A FOREIGN carrier that is given up takes its prior state (R177). -/
theorem givenCarrier_foreign {r' : Nat} {prior : Prior}
    (h : (p.carrier (p.trayOf r)).state = .held b r' (.foreign prior) ∨
      (p.carrier (p.trayOf r)).state = .returning b r' (.foreign prior)) :
    p.givenCarrier r = (p.carrier (p.trayOf r)).departed (.foreign prior) (p.holdRec r) := by
  rcases h with h | h <;> simp only [Part.givenCarrier, h]

/-- The hold list of a bay that is cleared keeps the records not given up. -/
theorem clearedBuild_eq {given : List Nat} (hf : ∀ r ∈ given, (p.holdRec r).isLine = false)
    (hg : ∀ r ∈ p.foreignOf (p.build b).hold, r ∈ given) : p.clearedBuild b =
      { p.build b with
        hold := (p.build b).hold.filter (fun r => !decide (r ∈ given)), foreigns := 0, pending := [] } := by
  have lines : (p.build b).hold.filter (fun r => (p.holdRec r).isLine) =
      (p.build b).hold.filter (fun r => !decide (r ∈ given)) := List.filter_congr fun r hr => by
    cases h : (p.holdRec r).isLine
    · simpa using hg r (List.mem_filter.mpr ⟨hr, by simp [h]⟩)
    · have hn : r ∉ given := fun hmem => by simp [hf r hmem] at h
      simp [hn]
  rw [Part.clearedBuild, lines]

/-- Settles O21: the builds are cleared bay by bay, by induction over the bays and over their hold lists. -/
theorem modeRequestsChangeTheMode : Obligations.ModeRequestsChangeTheMode := by
  intro s pkt h
  refine ⟨fun hv => ?_, fun hm => ?_, fun hv hm => ?_, fun hv hm hb => ?_, fun hv hm hb => ?_, fun hv hm => ?_⟩
  · exact exec_request_unchanged (exec_mode pkt) h (modeRequest_badValue (Mode.ofCode_eq_none hv))
  · exact exec_request_unchanged (exec_mode pkt) h (modeRequest_same (by exact hm))
  · exact exec_request_changed (q := { s.part with mode := .paused }) (exec_mode pkt) h rfl
      (modeRequest_paused hv (by exact hm))
  · exact exec_request_unchanged (exec_mode pkt) h (modeRequest_badState hv (by exact hm) (by exact hb))
  · intro given tray hd hc
    obtain ⟨gone, builds⟩ := foldl_giveUpBay Config.bays (s.part.replied pkt .ok []) List.nodup_range' hd hc
    have config := modeRequest_config (off := takeLaneOut) (p := s.part.replied pkt .ok []) hv hm hb
    generalize Config.bays.foldl Part.giveUpBay (s.part.replied pkt .ok []) = u at gone builds config
    have ring : ({ u with mode := .config } : Part).ring = (s.part.replied pkt .ok []).ring :=
      (congrArg Part.ring gone.frame : u.ring = _)
    rw [← replied_of_ring ring] at config
    have changed := exec_request_changed (exec_mode pkt) h (by exact rfl) config
    rw [replied_of_ring ring] at changed
    refine ⟨_, changed, congrArg (fun x : Part => { x with mode := .config }) gone.frame, fun b => ?_, gone.recs,
      gone.carrier, fun r b r' prior hr hstate => ?_⟩
    · refine (builds b).trans ?_
      have foreign : ∀ r ∈ given, (s.part.holdRec r).isLine = false := fun r hr => by
        obtain ⟨b, -, hr⟩ := List.mem_flatMap.mp hr
        exact givenBy_foreign hr
      by_cases hb : 1 ≤ b ∧ b ≤ 64 ∧ (s.part.build b).state = .idle
      · obtain ⟨h₁, h₂, hs⟩ := hb
        have bay : b ∈ Config.bays := mem_bays.mpr ⟨h₁, h₂⟩
        rw [if_pos ⟨bay, hs⟩, if_pos ⟨h₁, h₂, hs⟩]
        refine clearedBuild_eq (p := s.part) foreign fun r hr => ?_
        refine List.mem_flatMap.mpr ⟨b, bay, ?_⟩
        rwa [if_pos hs]
      · refine (if_neg fun hb' => hb ?_).trans (if_neg hb).symm
        obtain ⟨h₁, h₂⟩ := mem_bays.mp hb'.1
        exact ⟨h₁, h₂, hb'.2⟩
    · refine (gone.given r hr).trans ((givenCarrier_foreign (p := s.part) hstate).trans ?_)
      cases prior <;> rfl
  · exact exec_request_answered (exec_mode pkt) h (modeRequest_run hv (by exact hm))

end Sys2Proof.Machine
